-- ==== Sys2Proof/Word.lean ====
section
/-! DEFINITION. The word types of the block: what the spec treats as bits and nothing else. -/

namespace Sys2Proof

/-- A byte is 8 bits (R11). -/
abbrev Byte := BitVec 8

/-- A 32-bit value: a register value, a command operand, a counter or the millisecond clock (R9, R29, R125). -/
abbrev Word := BitVec 32

/-- A chip register number, 7 bits (R71). -/
abbrev RegNum := BitVec 7

/-- The 80-bit command word `op[79:72] ++ drv[71:64] ++ a[63:32] ++ b[31:0]` (R125). -/
abbrev CmdWord := BitVec 80

/-- One line sample or line level: `true` is level 1 (high, idle), `false` is level 0 (R12). -/
abbrev Level := Bool

end Sys2Proof
end

