-- ==== Sys2Proof/Config.lean ====
section
/-! DEFINITION. The implementation parameters `CFG` of R9 with the constraints of R10, the fixed constants of R9, the one
unknown assignment `cfg` the machine runs with, and the free values of the model.

`cfg` has no body: it is any assignment that meets the constraints, so a claim about the machine is a claim about all of
them. The default field values are the reference assignment `CFG_REF` of `95_test_vectors.md` section 1: they show that the
constraints can be met, and `cfgRef` names them for the tests; nothing says that `cfg` is `cfgRef` (assumption 1). -/

namespace Sys2Proof

/-- The nine write slots of a driver, in the index order of R30, which is also the write priority order. -/
inductive WSlot where
  | globalConf | slaveConf | chopperConf | currentConf | pwmConf
  | pwmThreshold | coolThreshold | coolstepConf | stallThreshold
deriving DecidableEq, Repr

/-- The index of a write slot (R30). -/
def WSlot.index : WSlot → Nat
  | .globalConf => 0
  | .slaveConf => 1
  | .chopperConf => 2
  | .currentConf => 3
  | .pwmConf => 4
  | .pwmThreshold => 5
  | .coolThreshold => 6
  | .coolstepConf => 7
  | .stallThreshold => 8

/-- All write slots, lowest index first (R30). -/
def WSlot.all : List WSlot :=
  [.globalConf, .slaveConf, .chopperConf, .currentConf, .pwmConf, .pwmThreshold, .coolThreshold, .coolstepConf, .stallThreshold]

/-- The two current-sense ranges: `vs1` is the high-sensitivity range, `vs0` the standard range (R283). -/
inductive SenseRange where
  | vs1 | vs0
deriving DecidableEq, Repr

/-- `FRAME_BITS` (R9): bits of a serial frame. -/
def frameBitCount : Nat := 10

/-- `MAX_WRITE_BYTES` (R9): capacity of the write byte buffer. -/
def maxWriteBytes : Nat := 12

/-- `MAX_READ_BYTES` (R9): capacity of the read byte buffer. -/
def maxReadBytes : Nat := 8

/-- `SYNC` (R9, R105): first byte of every datagram. -/
def syncByte : Byte := 0x05

/-- `SLAVE_ADDR` (R9, R106): second byte of every request. -/
def slaveAddr : Byte := 0x00

/-- `MASTER_ADDR` (R9, R111): second byte of a READ response. -/
def masterAddr : Byte := 0xFF

/-- `REG_IFCNT` (R9, R72): register number of the interface counter. -/
def regIfcnt : RegNum := 0x02

/-- The CRC of `[0x05, 0x00, 0x02]`, the last byte of the constant `IFCNT_REQ` (R108). -/
def ifcntReqCrc : Byte := 0xCE

/-- `CRC_POLY` (R9, R113). -/
def crcPoly : Byte := 0x07

/-- `CRC_INIT` (R9, R113). -/
def crcInit : Byte := 0x00

/-- `IFCNT_MODULUS` (R9, R207). -/
def ifcntModulus : Nat := 16

/-- `MAX_TIMEOUTS` (R9, R222): the timeout count a driver may reach and stay present. -/
def maxTimeouts : Nat := 10

/-- `MIN_CURRENT_MA` (R9, R282): lower clamp of `SETCUR`. -/
def minCurrentMA : Nat := 50

/-- `CFG` (R9): every parameter the spec leaves OPEN, with the constraints R10, R178 (a) and `92_eei_decisions.md`
section 2 put on an assignment, but for the bound on `TSTEP_OF`, which R292 and R293 go beyond (assumption 29), and with what
R32 and R72 say of the register numbers (assumption 1). No operation writes it. The default values are `CFG_REF`. -/
structure Config where
  /-- `OVERSAMPLE`: samples per serial bit. -/
  oversample : Nat := 4
  /-- `IDLE_BITS`: idle bit periods driven before the first start bit of a transfer. -/
  idleBits : Nat := 2
  /-- `PRELOAD_BYTES`: bytes handed to the generator by `T_START`. -/
  preloadBytes : Nat := 1
  /-- `GUARD1_TICKS`: length of the `delay` guard. -/
  guard1Ticks : Nat := 4
  /-- `GUARD2A_TICKS`: length of `readSync1`. -/
  guard2aTicks : Nat := 4
  /-- `GUARD2B_TICKS`: length of `readSync2`. -/
  guard2bTicks : Nat := 4
  /-- `CAPTURE_SLACK_BITS`: extra bit periods captured. -/
  captureSlackBits : Nat := 4
  /-- `MAX_DRIVERS`: largest `N` accepted by `INIT`. -/
  maxDrivers : Nat := 8
  /-- How many lines the platform has (R163 "any line the platform has"; assumption 3). -/
  platformLines : Nat := 8
  /-- `TRANSFER_TIMEOUT`, in ticks of the millisecond clock. -/
  transferTimeout : Nat := 10
  /-- `DEVICE_MAX_MA`: upper clamp of `SETCUR`. -/
  deviceMaxMA : Nat := 2000
  /-- `I_MAX_VS1`: largest current served by the high-sensitivity range. -/
  iMaxVs1 : Nat := 1000
  /-- `CS_SCALE(range, mA)`: the linear scale of each range, to an unclamped code (R284). -/
  csScale : SenseRange → Nat → Int := fun r mA =>
    match r with
    | .vs1 => (32 * (mA : Int) + 500) / 1000 - 1
    | .vs0 => (32 * (mA : Int) + 1000) / 2000 - 1
  /-- `MAX_STANDSTILL_MA`. -/
  maxStandstillMA : Nat := 600
  /-- `DEFAULT_STANDSTILL_FRACTION`, in 0..256. -/
  defaultStandstillFraction : Fin 257 := 128
  /-- `DEFAULT_MICROSTEP_SHIFT`, in 0..8. -/
  defaultMicrostepShift : Fin 9 := 4
  /-- `DEFAULT_INTERPOLATE`. -/
  defaultInterpolate : Bool := true
  /-- `N_WRITE_BASE`: number of write slots of the base set. -/
  nWriteBase : Nat := 6
  /-- `N_WRITE_EXT`: number of write slots of the widened set. -/
  nWriteExt : Nat := 9
  /-- `WREG[i]`: register number of write slot `i`. -/
  wreg : WSlot → RegNum := fun
    | .globalConf => 0x00
    | .slaveConf => 0x03
    | .chopperConf => 0x6C
    | .currentConf => 0x10
    | .pwmConf => 0x70
    | .pwmThreshold => 0x13
    | .coolThreshold => 0x14
    | .coolstepConf => 0x42
    | .stallThreshold => 0x40
  /-- `WDEFAULT[i]`: default value of write slot `i`. -/
  wdefault : WSlot → Word := fun _ => 0
  /-- `N_READ_BASE`: number of read slots of the minimal list. -/
  nReadBase : Nat := 2
  /-- `N_READ_EXT`: number of read slots of the widened list. -/
  nReadExt : Nat := 3
  /-- `RREG[k]`: register number of read slot `k` (meaningful for `k < N_READ_EXT`). -/
  rreg : Nat → RegNum := fun k =>
    match k with
    | 0 => 0x06
    | 1 => 0x6F
    | _ => 0x41
  /-- `IDENT_SLOT`: the read slot of the device identification. -/
  identSlot : Nat := 0
  /-- `STATUS_SLOT`: the read slot of the status register. -/
  statusSlot : Nat := 1
  /-- `IS_EXTENDED(v)`: the identification value is that of the extended variant. -/
  isExtended : Word → Bool := fun v => v >>> 24 == 0x21#32
  /-- `IRUN_SHIFT`: position of the run-current code in the current register. -/
  irunShift : Nat := 8
  /-- `IHOLD_SHIFT`: position of the hold-current code in the current register. -/
  iholdShift : Nat := 0
  /-- `VSENSE_BIT` of the chopper register. -/
  vsenseBit : Nat := 17
  /-- `MRES_SHIFT`: position of the microstep-resolution field of the chopper register. -/
  mresShift : Nat := 24
  /-- `INTPOL_BIT` of the chopper register. -/
  intpolBit : Nat := 28
  /-- `OPEN_LOAD_MASK`: the open-load bits of the status value. -/
  openLoadMask : Word := 0x000000C0
  /-- `STANDSTILL_MASK`: the standstill bit of the status value. -/
  standstillMask : Word := 0x80000000
  /-- `MAX_OPENLOAD_STEP_INTERVAL`: threshold of the read filter. -/
  maxOpenLoadStepInterval : Nat := 1000000000
  /-- `MIN_OPENLOAD_CURRENT_MA`: threshold of the read filter. -/
  minOpenLoadCurrentMA : Nat := 500
  /-- `STALL_MAP(t)`: map of the logical stall threshold onto 0..255 (R291). -/
  stallMap : Int → Byte := fun t => BitVec.ofInt 8 (t + 128)
  /-- `TSTEP_OF(sps)`: the fixed clock-rate formula (R293). DESIGN CHOICE: its result is not bounded to 20 bits, though
  `92_eei_decisions.md` section 2 says so, and R292 saturates it (assumption 29). -/
  tstepOf : Nat → Nat := fun sps => (12000000 + 128 * max sps 1) / (256 * max sps 1)
  /-- R10: `OVERSAMPLE >= 2`. -/
  oversample_ge : 2 ≤ oversample := by decide
  /-- R10: `PRELOAD_BYTES >= 1`. -/
  preload_ge : 1 ≤ preloadBytes := by decide
  /-- R9: `CAPTURE_SLACK_BITS >= 1`. -/
  slack_ge : 1 ≤ captureSlackBits := by decide
  /-- R178 (a): `HOLD >= 0` for every transfer length, at most `MAX_WRITE_BYTES` bytes. -/
  hold_ge : (min preloadBytes 12 - 1) * 10 * oversample ≤ guard1Ticks + guard2aTicks + guard2bTicks := by decide
  /-- R9: `MAX_DRIVERS >= 1`. -/
  drivers_ge : 1 ≤ maxDrivers := by decide
  /-- Every driver of the largest set has its line (R43, R47). -/
  lines_ge : maxDrivers ≤ platformLines := by decide
  /-- R9: `TRANSFER_TIMEOUT >= 1`. -/
  timeout_ge : 1 ≤ transferTimeout := by decide
  /-- R10: `MIN_CURRENT_MA <= I_MAX_VS1`. -/
  iMax_ge : 50 ≤ iMaxVs1 := by decide
  /-- R10: `I_MAX_VS1 <= DEVICE_MAX_MA`. -/
  iMax_le : iMaxVs1 ≤ deviceMaxMA := by decide
  /-- `92_eei_decisions.md` section 2: each scale is non-decreasing in the current. -/
  csScale_mono : ∀ (r : SenseRange) (a b : Nat), a ≤ b → csScale r a ≤ csScale r b := by
    intro r a b h
    cases r <;> simp only <;> omega
  /-- R9: `1 <= N_WRITE_BASE`. -/
  nWriteBase_ge : 1 ≤ nWriteBase := by decide
  /-- R10: `N_WRITE_BASE <= N_WRITE_EXT`. -/
  nWriteBase_le : nWriteBase ≤ nWriteExt := by decide
  /-- R10: `N_WRITE_EXT <= 9`. -/
  nWriteExt_le : nWriteExt ≤ 9 := by decide
  /-- R10: every `WREG[i]` differs from every other. -/
  wreg_inj : ∀ i j : WSlot, wreg i = wreg j → i = j := by
    intro i j
    cases i <;> cases j <;> decide
  /-- R72: the interface counter is never written by the block. -/
  wreg_ne_ifcnt : ∀ i : WSlot, wreg i ≠ 0x02 := by
    intro i
    cases i <;> decide
  /-- R10: `IDENT_SLOT < N_READ_BASE`. -/
  ident_lt : identSlot < nReadBase := by decide
  /-- R10: `STATUS_SLOT < N_READ_BASE`. -/
  status_lt : statusSlot < nReadBase := by decide
  /-- R10: `N_READ_BASE <= N_READ_EXT`. -/
  nReadBase_le : nReadBase ≤ nReadExt := by decide
  /-- R10: every `RREG[k]` differs from every other. -/
  rreg_inj : ∀ j k : Nat, j < nReadExt → k < nReadExt → rreg j = rreg k → j = k := by
    intro j k hj hk
    rcases j with _ | _ | _ | j <;> rcases k with _ | _ | _ | k <;> simp_all <;> omega
  /-- R32: write registers and read registers are disjoint sets, so no write register is ever read back. -/
  wreg_ne_rreg : ∀ (i : WSlot) (k : Nat), k < nReadExt → wreg i ≠ rreg k := by
    intro i k hk
    rcases k with _ | _ | _ | k
    iterate 3 cases i <;> decide
    omega
  /-- The two current codes lie inside the register and do not overlap (`92_eei_decisions.md` section 2). -/
  currentFields : irunShift + 5 ≤ 32 ∧ iholdShift + 5 ≤ 32 ∧ (irunShift + 5 ≤ iholdShift ∨ iholdShift + 5 ≤ irunShift) := by decide
  /-- The three chopper fields lie inside the register and do not overlap (`92_eei_decisions.md` section 2). -/
  chopperFields : vsenseBit < 32 ∧ mresShift + 4 ≤ 32 ∧ intpolBit < 32 ∧ vsenseBit ≠ intpolBit
      ∧ (vsenseBit < mresShift ∨ mresShift + 4 ≤ vsenseBit) ∧ (intpolBit < mresShift ∨ mresShift + 4 ≤ intpolBit) := by decide
  /-- The two status masks are disjoint (`92_eei_decisions.md` section 2). -/
  masks_disjoint : openLoadMask &&& standstillMask = 0 := by decide
  /-- R291: `STALL_MAP` is one-to-one from -128..127; both sides have 256 elements, so it is also onto 0..255. -/
  stallMap_inj : ∀ t u : Int, -128 ≤ t → t ≤ 127 → -128 ≤ u → u ≤ 127 → stallMap t = stallMap u → t = u := by
    intro t u ht ht' hu hu' h
    have h2 := congrArg BitVec.toNat h
    simp only [BitVec.toNat_ofInt] at h2
    omega
deriving Inhabited

/-- The reference assignment `CFG_REF` of `95_test_vectors.md` section 1, for tests only. -/
def cfgRef : Config := {}

/-- The assignment the machine runs with: any one that meets the constraints (assumption 1). -/
opaque cfg : Config

/-- Free value: the level of a captured sample that the environment of `EV_UNIT` does not give, by draw and capture
index (R53, R177; `93_implementation_defined.md` U3, U4; assumption 6). -/
opaque Config.freeSample : Nat → Nat → Level

/-- Free value: a byte of the write data port that nothing drives, by draw and position (R125; assumption 7). -/
opaque Config.freePortByte : Nat → Nat → Byte

/-- Free value: the full-step interval of a driver that the input vector does not give, by draw and driver (R52;
assumption 7). -/
opaque Config.freeInterval : Nat → Nat → Nat

/-- Free value: the line of a request datagram that arrives as a word and names none, by draw (assumption 9). -/
opaque Config.freeLine : Nat → Nat

/-- Free value: how many ticks after the switch to input a reply begins, by draw (R177, R178 (c); assumption 8). -/
opaque Config.freeReplyLead : Nat → Nat

end Sys2Proof
end

