-- ==== Sys2Proof/Machine/State.lean ====
section
/-! DEFINITION. The architectural state of the block (R20 to R58) as plain data, the inputs that arrive at it, and the state
after hardware reset. Fields that belong to the model and not to the spec say so. -/

namespace Sys2Proof.Machine

/-- A write slot `d.w[i]` (R29). -/
structure WriteSlot where
  /-- The chip register number `WREG[i]`. -/
  regNum : RegNum
  /-- The value the chip register is meant to hold. -/
  value : Word
  /-- The precomputed CRC of the write request. -/
  crc : Byte
  /-- The value has still to be written to the chip and verified. -/
  dirty : Bool
deriving DecidableEq, Repr

/-- The file of nine write slots of a driver (R28, R30). -/
structure WriteFile where
  globalConf : WriteSlot
  slaveConf : WriteSlot
  chopperConf : WriteSlot
  currentConf : WriteSlot
  pwmConf : WriteSlot
  pwmThreshold : WriteSlot
  coolThreshold : WriteSlot
  coolstepConf : WriteSlot
  stallThreshold : WriteSlot
deriving DecidableEq, Repr

/-- A read slot `d.r[k]` (R34). -/
structure ReadSlot where
  /-- The chip register number `RREG[k]`. -/
  regNum : RegNum
  /-- The value of the most recent accepted read. -/
  last : Word
  /-- The OR of every accepted value since the client last cleared bits. -/
  accum : Word
deriving DecidableEq, Repr

/-- The bring-up state of a driver (R37). -/
inductive DriverState where
  | noPower | initialising | ready | notInitialised
deriving DecidableEq, Repr

/-- What the in-flight transfer of a driver is, `d.pending` (R41). -/
inductive Pending where
  | none
  | write (i : WSlot)
  | read (k : Nat)
deriving DecidableEq, Repr

/-- A DriverInstance (R28 to R43). -/
structure Driver where
  /-- `d.state` (R37). -/
  state : DriverState
  /-- `d.w` (R28). -/
  w : WriteFile
  /-- `d.r[0..N_READ_EXT-1]` (R34). -/
  r : List ReadSlot
  /-- `d.numReads`, modulo `2^32` (R38). -/
  numReads : Word
  /-- `d.numWrites` (R38). -/
  numWrites : Word
  /-- `d.readErrors` (R38). -/
  readErrors : Word
  /-- `d.writeErrors` (R38). -/
  writeErrors : Word
  /-- `d.numTimeouts` (R38). -/
  numTimeouts : Word
  /-- `d.lastIfCount` (R39). -/
  lastIfCount : Byte
  /-- `d.nWrite`: number of active write slots (R40). -/
  nWrite : Nat
  /-- `d.maxReadCount` (R40). -/
  maxReadCount : Nat
  /-- `d.readCursor` (R40). -/
  readCursor : Nat
  /-- `d.readCycleDone` (R40). -/
  readCycleDone : Bool
  /-- `d.widened` (R40). -/
  widened : Bool
  /-- `d.pending` (R41). -/
  pending : Pending
  /-- `d.microstepShift`, 0..8 (R42). -/
  microstepShift : Fin 9
  /-- `d.interpolate` (R42). -/
  interpolate : Bool
  /-- `d.motorCurrent`, milliamps (R42). -/
  motorCurrent : Nat
  /-- `d.standstillFraction`, 0..256 (R42). -/
  standstillFraction : Fin 257
  /-- `d.linePin`, identified with the driver index (R43). -/
  linePin : Nat
  /-- `d.diagPin`, the inert enable/diagnostic pin reference (R43, R336). -/
  diagPin : Nat
deriving DecidableEq, Repr

/-- `tstate` (R46). `writeSync` is never the value between two steps (R161; assumption 22). -/
inductive TState where
  | idle | writeSync | writing | delay | readSync1 | readSync2 | reading | complete | error
deriving DecidableEq, Repr

/-- The direction of a line (R47). -/
inductive LineDir where
  | output | input
deriving DecidableEq, Repr

/-- The Transport (R46 to R50) with the timer that R165 to R168 arm and the position of the waveform generator. -/
structure Transport where
  /-- `tstate` (R46). -/
  tstate : TState
  /-- `lineSel` (R47). -/
  lineSel : Nat
  /-- `lineDir` of the selected line; every other line is `output` (R47). -/
  lineDir : LineDir
  /-- `lineLevel`: the level driven while `lineDir = output`; every other line is at level 1 (R47). -/
  lineLevel : Level
  /-- `txBuf[0..11]` (R48). -/
  txBuf : List Byte
  /-- `txCount` (R48). -/
  txCount : Nat
  /-- `txQueued` (R48). -/
  txQueued : Nat
  /-- `rxBuf`: its specified positions `0..rxDecoded-1` (R49; assumption 14). -/
  rxBuf : List Byte
  /-- `rxCount` (R49). -/
  rxCount : Nat
  /-- `rxDecoded` (R49). -/
  rxDecoded : Nat
  /-- The MODEL's own: `rxBuf` and `rxDecoded` are valid, that is, a `T_CHECK` returned true and no `T_START` has been
  accepted since (R361; assumption 5). -/
  rxValid : Bool
  /-- `samples`: its specified positions (R50; assumption 14). -/
  samples : List Level
  /-- `sampleCount` (R50). -/
  sampleCount : Nat
  /-- Ticks until the hardware engine raises the next `EV_UNIT` (R165 to R169, R333; assumption 18). -/
  timer : Nat
  /-- Samples of the write waveform already driven (R174; assumption 18). -/
  driven : Nat
  /-- The MODEL's own: how many free values were drawn (assumption 6). -/
  draws : Nat
deriving DecidableEq, Repr

/-- The answer ports: `ok` and `res` of a command, the bytes on `rdata` and the samples on the sample port (R125;
assumption 19). -/
structure Reply where
  ok : Bool
  res : Word
  rdata : List Byte
  sampleOut : List Level
deriving DecidableEq, Repr

/-- The data input ports: the write bytes of `T_START`, the samples of `DECODE` (R125), and the input vector
`fullStepInterval` of `SPIN` (R52, R127). -/
structure Ports where
  wdata : List Byte
  sampleIn : List Level
  fullStepInterval : List Nat
deriving DecidableEq, Repr

/-- What arrives at the block from outside, one item a step (R7, R129; assumption 12). -/
inductive Input where
  /-- An encoded word: a command on the command port, a datagram, or a frame (R104, R125, R100). -/
  | word (nbits w : Nat)
  /-- `EV_UNIT` at the event level, with the captured sequence it may carry (R169). -/
  | evUnit (capture : List Level)
  /-- `EV_HWERR` (R170). -/
  | evHwErr
  /-- One tick of the periodic timer: the level of the selected line and whether the engine reports a fault in it (R53,
  R333, R324). -/
  | tick (lineIn : Level) (hwErr : Bool)
  /-- The outside drives new data on the input ports (R125). -/
  | ports (p : Ports)
deriving DecidableEq, Repr

/-- The state of the block: bus, DriverInstances and Transport (R20), its ports, and what is still to arrive. -/
structure State where
  /-- `running` (R21). -/
  running : Bool
  /-- `currentDriver` (R23). -/
  currentDriver : Option Nat
  /-- `lastServiced` (R24). -/
  lastServiced : Nat
  /-- `transferStartTime` (R25). -/
  transferStartTime : Word
  /-- `drivers[0..nDrivers-1]`; `nDrivers` is its length (R22; assumption 15). -/
  drivers : List Driver
  /-- The Transport. -/
  tr : Transport
  /-- The answer ports (R125). -/
  reply : Reply
  /-- The data input ports (R125). -/
  ports : Ports
  /-- The MODEL's own: what is still to arrive at the block, first item first (assumption 12). -/
  inQ : List Input
deriving DecidableEq, Repr

/-- Why a step stops. -/
inductive Fault where
  /-- An internal operation (`E_START`, `E_DONE`, `E_TIMEOUT`) acts on a driver that does not exist: there is no
  `drivers[d]` beyond `nDrivers` (R22). Raised by those three as instructions of their own, never by `SPIN`. Safe: the
  machine stops where the spec gives no driver to act on (assumption 11). -/
  | noSuchDriver (d : Nat)
  /-- An internal operation (`E_START`, `E_DONE`, `E_TIMEOUT`, `GETNEXT`), issued as an instruction of its own, would read a
  field that the spec calls unspecified there: any of them while `running = 0` (R22, R57, R352), and `E_DONE` on a pending
  transfer whose bytes no `T_CHECK` has delivered (R361). R58 gives such a read no result. Raised by those four, never by
  `SPIN`. Safe: the machine stops where the spec gives no value (assumption 5). -/
  | unspecifiedRead
deriving DecidableEq, Repr

/-- Why a step has no meaning. -/
inductive Refusal where
  /-- An instruction that exec has no meaning for yet. Safe. -/
  | notModelled (mnemonic : String)
  /-- A word that is no encoded form of R100, R104, R125: no bits or more than 80, a value beyond its width, a 4-byte datagram
  that is no request, ten bits that are no frame. A width between the forms is read as the next longer form (assumption 30).
  Raised by `step`. Safe: the spec has no such form (R117, R118; assumption 17). -/
  | noSuchForm (nbits w : Nat)
deriving DecidableEq, Repr

/-- The Transport after hardware reset: `idle`, every line output at level 1 (R57); the rest is unspecified there and is
zero or empty here (assumption 4). -/
def Transport.reset : Transport :=
  { tstate := .idle, lineSel := 0, lineDir := .output, lineLevel := true
    txBuf := List.replicate maxWriteBytes 0, txCount := 0, txQueued := 0
    rxBuf := [], rxCount := 0, rxDecoded := 0, rxValid := false
    samples := [], sampleCount := 0, timer := 0, driven := 0, draws := 0 }

/-- The machine right after hardware reset: `running = 0`, `tstate = idle`, every line output at level 1 (R57, R350);
every other field is unspecified there and has the value assumption 4 names. Nothing has arrived (R351). -/
def State.reset : State :=
  { running := false, currentDriver := none, lastServiced := 0, transferStartTime := 0, drivers := []
    tr := Transport.reset
    reply := { ok := false, res := 0, rdata := [], sampleOut := [] }
    ports := { wdata := [], sampleIn := [], fullStepInterval := [] }
    inQ := [] }

end Sys2Proof.Machine
end

