-- ==== Sys2Proof/Machine/Codec.lean ====
section
/-! DEFINITION. The codec layer: `Encode`, `EncodeBuf`, `Decode` (R100 to R102, R140 to R150), the write waveform of a
transfer (R174) and the capture length (R176). Pure functions, no state between calls. -/

namespace Sys2Proof.Machine

/-- `MIDPOINT = (OVERSAMPLE + 1) div 2` (R9, R145). -/
def midpoint (os : Nat) : Nat := (os + 1) / 2

/-- The frame `F(b)[0..9]` of a byte: start bit 0, data bits least significant first, stop bit 1 (R100). -/
def frameLevels (b : Byte) : List Level :=
  [false, b.getLsbD 0, b.getLsbD 1, b.getLsbD 2, b.getLsbD 3, b.getLsbD 4, b.getLsbD 5, b.getLsbD 6, b.getLsbD 7, true]

/-- Each bit expanded to `os` equal samples (R101). -/
def expandBits (os : Nat) (bits : List Level) : List Level := bits.flatMap (List.replicate os)

/-- `Encode(b)` (R140). -/
def encodeByte (os : Nat) (b : Byte) : List Level := expandBits os (frameLevels b)

/-- `EncodeBuf(B, n)` with `n` the length of the list (R142). -/
def encodeBytes (os : Nat) (bytes : List Byte) : List Level := bytes.flatMap (encodeByte os)

/-- The decoder's local variables inside one `Decode` call (R144). -/
structure DecodeVars where
  /-- `lastEdge`. -/
  lastEdge : Nat
  /-- `lastBit`. -/
  lastBit : Level
  /-- `bitNo`: 0 waiting for a start bit, 1..8 data bit `bitNo - 1`, 9 the stop bit. -/
  bitNo : Nat
  /-- `acc`. -/
  acc : Byte
  /-- `bytes`. -/
  bytes : List Byte
deriving DecidableEq, Repr

/-- The backward scan of R146: at most `n` positions back from `j` while the sample before still shows `v`. -/
def scanBack (S : List Level) (v : Level) : Nat → Nat → Nat
  | 0, j => j
  | n + 1, j => if S[j - 1]? = some v then scanBack S v n (j - 1) else j

/-- Resynchronisation at sampling point `p` with sampled value `v` (R146): the scan goes at most `os - 1` samples back and
never below index 0. -/
def resync (os : Nat) (S : List Level) (p : Nat) (v : Level) (x : DecodeVars) : DecodeVars :=
  if v = x.lastBit then x
  else { x with lastEdge := scanBack S v (min (os - 1) p) p, lastBit := v }

/-- What the sampled value does to the frame in progress; `none` is the abort of a low stop bit (R144, R147, R148). -/
def takeBit (v : Level) (x : DecodeVars) : Option DecodeVars :=
  if x.bitNo = 0 then some (if v then x else { x with bitNo := 1, acc := 0 })
  else if x.bitNo ≤ 8 then
    some { x with acc := x.acc ||| ((if v then 1#8 else 0#8) <<< (x.bitNo - 1)), bitNo := x.bitNo + 1 }
  else if v then some { x with bytes := x.bytes ++ [x.acc], bitNo := 0 }
  else none

/-- The loop of `Decode` (R144). Every pass moves `lastEdge` forward, so `S.length` passes are enough (R149). -/
def decodeLoop (os : Nat) (S : List Level) (n : Nat) : Nat → DecodeVars → List Byte
  | 0, x => x.bytes
  | fuel + 1, x =>
    if n ≤ x.bytes.length then x.bytes
    else
      let p := x.lastEdge + midpoint os
      match S[p]? with
      | none => x.bytes
      | some v =>
        match takeBit v (resync os S p v x) with
        | none => x.bytes
        | some y => decodeLoop os S n fuel { y with lastEdge := y.lastEdge + os }

/-- `Decode(S, n)`: the decoded bytes; `countDecoded` is their number (R144). -/
def decodeSamples (os : Nat) (S : List Level) (n : Nat) : List Byte :=
  decodeLoop os S n S.length { lastEdge := 0, lastBit := true, bitNo := 0, acc := 0, bytes := [] }

/-- `CAPTURE_LEN` (R10, R176). -/
def captureLen (c : Config) : Nat := (maxReadBytes * 10 + c.captureSlackBits) * c.oversample

/-- The write waveform `W` of a transfer: the idle lead-in and the frames of the buffer (R103, R174). -/
def writeWaveform (c : Config) (txBuf : List Byte) (txCount : Nat) : List Level :=
  List.replicate (c.idleBits * c.oversample) true ++ encodeBytes c.oversample (txBuf.take txCount)

/-- The first `n` elements of a list, the missing ones given by `free` at their positions. -/
def fillTo {α : Type} (n : Nat) (l : List α) (free : Nat → α) : List α :=
  l.take n ++ (List.range (n - l.length)).map fun j => free (l.length + j)

end Sys2Proof.Machine
end

