-- ==== Sys2Proof/Machine/Bytes.lean ====
section
/-! DEFINITION. Byte order: the four payload bytes of a 32-bit value, most significant first (R13, R73), the bytes of a
datagram integer `G` (R104), and the byte that carries a register number (R71). -/

namespace Sys2Proof.Machine

/-- `bytes_be(v) = [v[31:24], v[23:16], v[15:8], v[7:0]]` (R13, R73). -/
def bytesBe (v : Word) : List Byte :=
  [v.extractLsb' 24 8, v.extractLsb' 16 8, v.extractLsb' 8 8, v.extractLsb' 0 8]

/-- `be32(b3, b2, b1, b0)` (R13, R73). -/
def be32 (b3 b2 b1 b0 : Byte) : Word := b3 ++ b2 ++ b1 ++ b0

/-- The register byte of a READ request: bit 7 clear (R110). -/
def readRegByte (r : RegNum) : Byte := 0#1 ++ r

/-- The register byte of a WRITE request: `regNum | 0x80` (R107). -/
def writeRegByte (r : RegNum) : Byte := 1#1 ++ r

/-- The register number in a register byte: bits 6..0 (R71). -/
def regOfByte (b : Byte) : RegNum := b.extractLsb' 0 7

/-- The `n` bytes of a datagram whose integer is `g`, in wire order: `g[0]` is the most significant (R104). -/
def wireBytes : Nat → Nat → List Byte
  | 0, _ => []
  | n + 1, g => BitVec.ofNat 8 (g / 256 ^ n) :: wireBytes n g

end Sys2Proof.Machine
end

