-- ==== Sys2Proof/Machine/Crc.lean ====
section
/-! DEFINITION. `CRC8` (R113): most significant bit first, polynomial `0x07`, seed 0, no reflection, no final XOR
(assumption 2 on the bit order of a real chip). -/

namespace Sys2Proof.Machine

/-- One shift of the CRC register (R113). -/
def crcShift (c : Byte) : Byte := if c.msb then (c <<< 1) ^^^ crcPoly else c <<< 1

/-- `n` shifts of the CRC register. -/
def crcShifts : Nat → Byte → Byte
  | 0, c => c
  | n + 1, c => crcShifts n (crcShift c)

/-- One byte into the CRC register (R113). -/
def crcByte (c x : Byte) : Byte := crcShifts 8 (c ^^^ x)

/-- `CRC8(bytes)` (R113), over the bytes in wire order (R75). -/
def crc8 (bytes : List Byte) : Byte := bytes.foldl crcByte crcInit

end Sys2Proof.Machine
end

