-- ==== Sys2Proof/Machine/Operands.lean ====
section
/-! DEFINITION. The operand forms of the commands (R127): the driver operand, register name codes, the microstep count, the
signed stall threshold, and the fields inside a slot value. Also access to the slots by index (R28, R34). -/

namespace Sys2Proof.Machine

/-- `d.w[i]` (R28). -/
def WriteFile.get (f : WriteFile) : WSlot → WriteSlot
  | .globalConf => f.globalConf
  | .slaveConf => f.slaveConf
  | .chopperConf => f.chopperConf
  | .currentConf => f.currentConf
  | .pwmConf => f.pwmConf
  | .pwmThreshold => f.pwmThreshold
  | .coolThreshold => f.coolThreshold
  | .coolstepConf => f.coolstepConf
  | .stallThreshold => f.stallThreshold

/-- `d.w[i] <- x` (R28). -/
def WriteFile.set (f : WriteFile) (i : WSlot) (x : WriteSlot) : WriteFile :=
  match i with
  | .globalConf => { f with globalConf := x }
  | .slaveConf => { f with slaveConf := x }
  | .chopperConf => { f with chopperConf := x }
  | .currentConf => { f with currentConf := x }
  | .pwmConf => { f with pwmConf := x }
  | .pwmThreshold => { f with pwmThreshold := x }
  | .coolThreshold => { f with coolThreshold := x }
  | .coolstepConf => { f with coolstepConf := x }
  | .stallThreshold => { f with stallThreshold := x }

/-- A write file whose slot `i` is `x i`. -/
def WriteFile.build (x : WSlot → WriteSlot) : WriteFile :=
  { globalConf := x .globalConf, slaveConf := x .slaveConf, chopperConf := x .chopperConf
    currentConf := x .currentConf, pwmConf := x .pwmConf, pwmThreshold := x .pwmThreshold
    coolThreshold := x .coolThreshold, coolstepConf := x .coolstepConf, stallThreshold := x .stallThreshold }

/-- Every slot of a write file changed by a function of its index and content. -/
def WriteFile.mapSlots (f : WriteFile) (g : WSlot → WriteSlot → WriteSlot) : WriteFile :=
  WriteFile.build fun i => g i (f.get i)

/-- `d.r[k]` (R34). A slot that the list lacks has the content `INIT` gives it; no run reaches that (assumption 21). -/
def Driver.readSlot (c : Config) (d : Driver) (k : Nat) : ReadSlot :=
  d.r.getD k { regNum := c.rreg k, last := 0, accum := 0 }

/-- `d.r[k] <- x` (R34). -/
def Driver.setReadSlot (d : Driver) (k : Nat) (x : ReadSlot) : Driver := { d with r := d.r.set k x }

/-- The write slot of an index (R30). -/
def slotOfIndex (i : Nat) : Option WSlot := WSlot.all[i]?

/-- The diagnostic fields `GETREG` can name (R127, R299). -/
inductive Diag where
  | numReads | numWrites | readErrors | writeErrors | numTimeouts | lastIfCount | state
deriving DecidableEq, Repr

/-- What a register name code names (R127). -/
inductive RegName where
  | write (i : WSlot)
  | read (k : Nat)
  | diag (f : Diag)
deriving DecidableEq, Repr

/-- The diagnostic field of a name code `0x20..0x26` (R127). -/
def diagOfCode (code : Nat) : Option Diag :=
  match code with
  | 0x20 => some .numReads
  | 0x21 => some .numWrites
  | 0x22 => some .readErrors
  | 0x23 => some .writeErrors
  | 0x24 => some .numTimeouts
  | 0x25 => some .lastIfCount
  | 0x26 => some .state
  | _ => none

/-- The register named by a name code: `0x00..0x08` a write slot, `0x10 + k` with `k < N_READ_EXT` a read slot,
`0x20..0x26` a diagnostic field (R127); tested in the order of R299 (assumption 20). -/
def regNameOf (c : Config) (code : Word) : Option RegName :=
  if code.toNat < 9 then (slotOfIndex code.toNat).map .write
  else if 0x10 ≤ code.toNat ∧ code.toNat - 0x10 < c.nReadExt then some (.read (code.toNat - 0x10))
  else (diagOfCode code.toNat).map .diag

/-- The code of a driver state (R299). -/
def DriverState.code : DriverState → Word
  | .noPower => 0
  | .initialising => 1
  | .ready => 2
  | .notInitialised => 3

/-- The value of a diagnostic field (R299). -/
def Driver.diagValue (d : Driver) : Diag → Word
  | .numReads => d.numReads
  | .numWrites => d.numWrites
  | .readErrors => d.readErrors
  | .writeErrors => d.writeErrors
  | .numTimeouts => d.numTimeouts
  | .lastIfCount => d.lastIfCount.setWidth 32
  | .state => d.state.code

/-- `log2` of a microstep count that is a power of two up to 256; `none` for every other operand (R287). -/
def microstepShiftOf (microsteps : Word) : Option (Fin 9) :=
  match microsteps.toNat with
  | 1 => some 0
  | 2 => some 1
  | 4 => some 2
  | 8 => some 3
  | 16 => some 4
  | 32 => some 5
  | 64 => some 6
  | 128 => some 7
  | 256 => some 8
  | _ => none

/-- `clamp(x, lo, hi)` (R11). -/
def clamp (x lo hi : Int) : Int := if x < lo then lo else if hi < x then hi else x

/-- A current clamped to `MIN_CURRENT_MA .. DEVICE_MAX_MA` (R282). -/
def clampCurrent (c : Config) (mA : Nat) : Nat :=
  if mA < minCurrentMA then minCurrentMA else if c.deviceMaxMA < mA then c.deviceMaxMA else mA

/-- The range a clamped current selects (R283). -/
def senseRange (c : Config) (i : Nat) : SenseRange := if i ≤ c.iMaxVs1 then .vs1 else .vs0

/-- A 5-bit current code: the scale of the range, clamped to 0..31 (R284). -/
def currentCode (c : Config) (r : SenseRange) (mA : Nat) : Word := BitVec.ofInt 32 (clamp (c.csScale r mA) 0 31)

/-- The hold current in milliamps (R285). -/
def holdCurrent (c : Config) (i : Nat) (fraction : Fin 257) : Nat := min (i * fraction.val / 256) c.maxStandstillMA

/-- The current register with its two codes replaced and every other bit kept (R282, R284). -/
def withCurrentCodes (c : Config) (v run hold : Word) : Word :=
  (v &&& ~~~(31#32 <<< c.irunShift) &&& ~~~(31#32 <<< c.iholdShift)) ||| (run <<< c.irunShift) ||| (hold <<< c.iholdShift)

/-- A chopper register with its vsense bit replaced and every other bit kept (R282). -/
def withVsense (c : Config) (v : Word) (vs : Bool) : Word :=
  (v &&& ~~~(1#32 <<< c.vsenseBit)) ||| ((if vs then 1#32 else 0#32) <<< c.vsenseBit)

/-- A chopper register with its microstep resolution and interpolation bit replaced and every other bit kept
(R287, R288). -/
def withMicrosteps (c : Config) (v : Word) (shift : Fin 9) (interpolate : Bool) : Word :=
  (v &&& ~~~(15#32 <<< c.mresShift) &&& ~~~(1#32 <<< c.intpolBit)) |||
    (BitVec.ofNat 32 (8 - shift.val) <<< c.mresShift) ||| ((if interpolate then 1#32 else 0#32) <<< c.intpolBit)

/-- The answer of `GETMS`: `res[8:0] = 2^microstepShift`, `res[16] = interpolate` (R127, R289). -/
def microstepAnswer (shift : Fin 9) (interpolate : Bool) : Word :=
  BitVec.ofNat 32 (2 ^ shift.val) ||| (if interpolate then 1#32 <<< 16 else 0#32)

end Sys2Proof.Machine
end

