-- ==== Sys2Proof/Machine/Flags.lean ====
section
/-! DEFINITION. The flags of the block and the tests over them (R56): dirty flags, `readCycleDone`, `widened`, the
acceptance of a response with the error kind of a rejection, the plausibility filter, and which driver is eligible. There
are no condition codes (R56). -/

namespace Sys2Proof.Machine

/-- The precomputed CRC of a write slot: `CRC8` of the write request for its register and value (R29). -/
def slotCrc (regNum : RegNum) (value : Word) : Byte :=
  crc8 ([syncByte, slaveAddr, writeRegByte regNum] ++ bytesBe value)

/-- Slot `i` is active and dirty (R201). -/
def Driver.dirtyActive (d : Driver) (i : WSlot) : Bool := decide (i.index < d.nWrite) && (d.w.get i).dirty

/-- The lowest-indexed dirty active slot (R202). -/
def Driver.lowestDirty (d : Driver) : Option WSlot := WSlot.all.find? d.dirtyActive

/-- No active slot is dirty (R243). -/
def Driver.allClean (d : Driver) : Bool := WSlot.all.all fun i => !d.dirtyActive i

/-- `d.w[i].dirty <- x`. -/
def Driver.setDirty (d : Driver) (i : WSlot) (x : Bool) : Driver :=
  { d with w := d.w.set i { d.w.get i with dirty := x } }

/-- The driver is in the scheduler's set: `maxReadCount != 0` (R251). -/
def Driver.eligible (d : Driver) : Bool := d.maxReadCount != 0

/-- The bring-up test passes (R244). -/
def Driver.settled (d : Driver) : Bool := d.state == .initialising && d.allClean && d.readCycleDone

/-- The five error kinds (R311). No state holds a kind; they name the effects of `Driver.record`. -/
inductive ErrorKind where
  | frameCrcMismatch | echoMismatch | writeNotVerified | transferTimeout | driverNotPresent
deriving DecidableEq, Repr

/-- The response to a WRITE: `none` when it is accepted, else the kind of the first failing test in the order short decode
or wrong register, CRC, counter (R207, R209). Bytes 0 and 1 and the upper payload bytes are tested through the CRC only. -/
def judgeWrite (lastIfCount : Byte) : List Byte → Option ErrorKind
  | [b0, b1, b2, b3, b4, b5, b6, b7] =>
    if b2 ≠ readRegByte regIfcnt then some .echoMismatch
    else if crc8 [b0, b1, b2, b3, b4, b5, b6] ≠ b7 then some .frameCrcMismatch
    else if b6.toNat % ifcntModulus ≠ (lastIfCount.toNat + 1) % ifcntModulus then some .writeNotVerified
    else none
  | _ => some .echoMismatch

/-- The response to a READ of register `reg`: `none` when it is accepted, else `echoMismatch`; its CRC byte is not tested
(R211, R212, R313). -/
def judgeRead (reg : RegNum) : List Byte → Option ErrorKind
  | [b0, b1, b2, _, _, _, _, _] =>
    if b0 = syncByte ∧ b1 = masterAddr ∧ b2 = readRegByte reg then none else some .echoMismatch
  | _ => some .echoMismatch

/-- The interface-counter byte of an `IFCNT_RESP`, its byte 6 (R109, R208). -/
def ifcntOf (rx : List Byte) : Byte := rx.getD 6 0

/-- The value of a `READ_RESP`, `be32` of its bytes 3..6 (R111, R213). -/
def readValueOf (rx : List Byte) : Word := be32 (rx.getD 3 0) (rx.getD 4 0) (rx.getD 5 0) (rx.getD 6 0)

/-- The plausibility filter of accepted reads (R214): the open-load bits of the status value are suppressed at standstill,
above the step-interval threshold, and below the current threshold. -/
def plausible (c : Config) (interval motorCurrent k : Nat) (v : Word) : Word :=
  if k = c.statusSlot ∧ (v &&& c.standstillMask ≠ 0 ∨ c.maxOpenLoadStepInterval < interval
      ∨ motorCurrent < c.minOpenLoadCurrentMA) then v &&& ~~~c.openLoadMask
  else v

end Sys2Proof.Machine
end

