-- ==== Sys2Proof/Machine/Ops.lean ====
section
/-! DEFINITION. The named operations over state that the meanings share: answering and refusing a command (R128), acting on
one driver, the slot update (R280), recording an error kind (R310, R311), and the Transport's transition function (R160 to
R185). -/

namespace Sys2Proof.Machine

/-! ### Answers, drivers -/

/-- `nDrivers` (R22; assumption 15). -/
def State.nDrivers (s : State) : Nat := s.drivers.length

/-- The answer to a command: `ok`, `res` and what it delivers on the data ports (R125, R127). -/
def State.answer (s : State) (ok : Bool) (res : Word) (rdata : List Byte := []) (sampleOut : List Level := []) : State :=
  { s with reply := { ok := ok, res := res, rdata := rdata, sampleOut := sampleOut } }

/-- A refused command changes no state and answers `ok = 0`, `res = 0` (R128). -/
def State.refuse (s : State) : State := s.answer false 0

/-- The Transport replaced. -/
def State.withTr (s : State) (t : Transport) : State := { s with tr := t }

/-- Driver `d` changed by `f`; the other drivers are untouched (R223 (d)). -/
def State.updDriver (s : State) (d : Nat) (f : Driver → Driver) : State := { s with drivers := s.drivers.modify d f }

/-- A command of `44_quantity_translation.md` on driver `drv`: refused while `running = 0` (R128 (b)) and for a driver
index out of range (R128 (c)), in every other case `f` says the driver's new content and the answer, or refuses. -/
def State.onDriver (s : State) (drv : Byte) (f : Driver → Option (Driver × Word)) : State :=
  if s.running then
    match s.drivers[drv.toNat]? with
    | none => s.refuse
    | some d =>
      match f d with
      | none => s.refuse
      | some (d', res) => (s.updDriver drv.toNat fun _ => d').answer true res
  else s.refuse

/-! ### The slot update, error kinds -/

/-- `UpdateRegister(d, i, v)`: value, CRC and dirty flag in one step (R280). -/
def Driver.updateRegister (d : Driver) (i : WSlot) (v : Word) : Driver :=
  { d with w := d.w.set i { regNum := (d.w.get i).regNum, value := v, crc := slotCrc (d.w.get i).regNum v, dirty := true } }

/-- The slot whose WRITE is in flight is marked dirty again (R209, R221). -/
def Driver.remark (d : Driver) : Driver :=
  match d.pending with
  | .write i => d.setDirty i true
  | _ => d

/-- `record <kind>(d)`, the block's only exception mechanism: the counter update and state change of the kind, and nothing
else (R310, R311). The path of an `echoMismatch` is that of the pending transfer. -/
def Driver.record (d : Driver) : ErrorKind → Driver
  | .frameCrcMismatch => { d.remark with writeErrors := d.writeErrors + 1 }
  | .echoMismatch =>
    match d.pending with
    | .read _ => { d with readErrors := d.readErrors + 1 }
    | _ => { d.remark with writeErrors := d.writeErrors + 1 }
  | .writeNotVerified => { d.remark with writeErrors := d.writeErrors + 1 }
  | .transferTimeout => { d.remark with numTimeouts := d.numTimeouts + 1 }
  | .driverNotPresent => { d with state := .notInitialised, maxReadCount := 0 }

/-! ### The Transport -/

/-- A transfer is in progress: `writing` to `reading` (R170). -/
def TState.inTransfer : TState → Bool
  | .writing | .delay | .readSync1 | .readSync2 | .reading => true
  | _ => false

/-- A new transfer may start (R163). -/
def TState.mayStart : TState → Bool
  | .idle | .complete | .error => true
  | _ => false

/-- `T_START(line, writeBuf, writeCount, readCount)` with `writeCount = buf.length`; `none` when the precondition on the
state and the counts fails (R163). The engine is armed for the lead-in and the first frame (R174). -/
def Transport.start (c : Config) (line : Nat) (buf : List Byte) (readCount : Nat) (t : Transport) : Option Transport :=
  if t.tstate.mayStart ∧ 1 ≤ buf.length ∧ buf.length ≤ maxWriteBytes ∧ 1 ≤ readCount ∧ readCount ≤ maxReadBytes then
    some { t with
      lineSel := line, txBuf := buf ++ t.txBuf.drop buf.length, txCount := buf.length, rxCount := readCount
      txQueued := min c.preloadBytes buf.length, lineDir := .output, lineLevel := true, sampleCount := 0
      rxValid := false, samples := [], tstate := .writing, timer := (c.idleBits + 10) * c.oversample, driven := 0 }
  else none

/-- `EV_UNIT` by state (R164 to R169, R173). In `reading` the captured sequence is what was stored tick by tick, then the
operand, then free values for the ticks nobody gives (assumption 6). -/
def Transport.unitDone (c : Config) (capture : List Level) (t : Transport) : Transport :=
  match t.tstate with
  | .writing =>
    if t.txQueued < t.txCount then { t with txQueued := t.txQueued + 1, timer := 10 * c.oversample }
    else { t with tstate := .delay, timer := c.guard1Ticks }
  | .delay => { t with tstate := .readSync1, timer := c.guard2aTicks }
  | .readSync1 => { t with tstate := .readSync2, timer := c.guard2bTicks }
  | .readSync2 => { t with tstate := .reading, lineDir := .input, samples := [], sampleCount := 0, timer := captureLen c }
  | .reading =>
    { t with
      tstate := .complete, lineDir := .output, lineLevel := true, sampleCount := captureLen c
      samples := fillTo (captureLen c) (t.samples ++ capture) (Config.freeSample t.draws), draws := t.draws + 1, timer := 0 }
  | .idle | .writeSync | .complete | .error => t

/-- The Transport stopped in state `x` with every line output at level 1; the samples become unspecified (R170, R172). -/
def Transport.halt (x : TState) (t : Transport) : Transport :=
  { t with tstate := x, lineDir := .output, lineLevel := true, samples := [], timer := 0 }

/-- `EV_HWERR` (R170). -/
def Transport.hwError (t : Transport) : Transport := if t.tstate.inTransfer then t.halt .error else t

/-- `T_ABORT` (R172). -/
def Transport.abort (t : Transport) : Transport := t.halt .idle

/-- `T_CHECK` (R171); `none` when it returns false. From here to the next `T_START` the read buffer is valid (R361). -/
def Transport.check (c : Config) (t : Transport) : Option Transport :=
  if t.tstate = .complete then
    let bytes := decodeSamples c.oversample t.samples t.rxCount
    some { t with
      rxBuf := bytes, rxDecoded := bytes.length, rxValid := true, lineDir := .output, lineLevel := true, tstate := .idle
      samples := [] }
  else none

/-- The received bytes `rx[0..n-1]`, `n = rxDecoded` (R206). -/
def Transport.rx (t : Transport) : List Byte := t.rxBuf.take t.rxDecoded

/-- The level the generator drives at the tick after `k` samples of the write waveform: sample `W[k]`, then level 1
(R174, R175). -/
def Transport.waveLevel (c : Config) (t : Transport) (k : Nat) : Level :=
  (writeWaveform c t.txBuf t.txCount).getD k true

/-- The engine raises every `EV_UNIT` that is due; a guard of length 0 ends in the tick that arms it (assumption 18). -/
def Transport.raiseDue (c : Config) : Nat → Transport → Transport
  | 0, t => t
  | n + 1, t => if t.tstate.inTransfer ∧ t.timer = 0 then Transport.raiseDue c n (t.unitDone c []) else t

/-- One tick of the periodic timer at the sample level: a fault is delivered before a completion (R324), and, as the model's
choice, before that tick's sample, which is then not taken or driven (assumption 18); while a transfer
is in progress one sample is driven (R174, R175) or captured (R176), and the `EV_UNIT` that falls due is handled in the
same tick (R174). -/
def Transport.tick (c : Config) (lineIn : Level) (hwErr : Bool) (t0 : Transport) : Transport :=
  let t := if hwErr then t0.hwError else t0
  if t.tstate.inTransfer then
    let u :=
      if t.tstate = .reading then { t with samples := t.samples ++ [lineIn], sampleCount := t.sampleCount + 1 }
      else { t with lineLevel := t.waveLevel c t.driven, driven := t.driven + 1 }
    Transport.raiseDue c 4 { u with timer := u.timer - 1 }
  else t

/-- The direction of a line: only the selected line ever leaves `output` (R47, R181). -/
def State.dirOfLine (s : State) (line : Nat) : LineDir := if line = s.tr.lineSel then s.tr.lineDir else .output

/-- The level the block drives on a line: only the selected line ever leaves level 1 (R47, R181). -/
def State.levelOfLine (s : State) (line : Nat) : Level := if line = s.tr.lineSel then s.tr.lineLevel else true

/-! ### Ticks of a transfer -/

/-- `HOLD`: ticks the line is held at 1 after the last stop-bit sample and before the switch to input (R175). -/
def holdTicks (c : Config) (txCount : Nat) : Nat :=
  c.guard1Ticks + c.guard2aTicks + c.guard2bTicks - (min c.preloadBytes txCount - 1) * 10 * c.oversample

/-- Ticks from `T_START` to `complete` (R180). -/
def transferTicks (c : Config) (txCount : Nat) : Nat :=
  (c.idleBits + 10 * txCount) * c.oversample + holdTicks c txCount + captureLen c

/-- `EV_UNIT` events of a transfer that runs to `complete` (R179). -/
def transferEvents (c : Config) (txCount : Nat) : Nat := txCount - min c.preloadBytes txCount + 5

end Sys2Proof.Machine
end

