-- ==== Sys2Proof/Machine/Engine.lean ====
section
/-! DEFINITION. The RegisterProtocolEngine (R200 to R224), the bring-up test (R244 to R247) and the scheduler's choice
(R252): the shared operations `SPIN` is made of, and the meanings of `E_START`, `E_DONE`, `E_TIMEOUT`, `GETNEXT` as
instructions of their own (assumption 11). -/

namespace Sys2Proof.Machine

/-! ### The bytes of a request -/

/-- The bytes of a `WRITE_REQ` with a given CRC byte (R107). -/
def writeReqBytes (regNum : RegNum) (value : Word) (crc : Byte) : List Byte :=
  [syncByte, slaveAddr, writeRegByte regNum] ++ bytesBe value ++ [crc]

/-- The bytes of a `READ_REQ` with a given CRC byte (R110). -/
def readReqBytes (regNum : RegNum) (crc : Byte) : List Byte := [syncByte, slaveAddr, readRegByte regNum, crc]

/-- The bytes of the `IFCNT_REQ` (R108). -/
def ifcntReqBytes : List Byte := readReqBytes regIfcnt ifcntReqCrc

/-- The 12 bytes of a WRITE transfer: `WRITE_REQ ++ IFCNT_REQ` (R112, R203). -/
def writeTransferBytes (regNum : RegNum) (value : Word) (crc : Byte) : List Byte :=
  writeReqBytes regNum value crc ++ ifcntReqBytes

/-- The 4 bytes of a READ transfer (R112, R204). -/
def readTransferBytes (regNum : RegNum) : List Byte :=
  readReqBytes regNum (crc8 [syncByte, slaveAddr, readRegByte regNum])

/-! ### E_START -/

/-- One transfer started on line `d` with 8 bytes to read; the `T_START` inside `E_START` is not refused when `tstate` is
`idle` (R205). -/
def Transport.issue (c : Config) (d : Nat) (buf : List Byte) (t : Transport) : Transport :=
  (t.start c d buf maxReadBytes).getD t

/-- What `E_START` does to the driver: clear the lowest dirty flag speculatively and note the WRITE, or note the READ at
the cursor (R202, R204). -/
def Driver.choose (d : Driver) : Driver :=
  match d.lowestDirty with
  | some i => { d.setDirty i false with pending := .write i }
  | none => { d with pending := .read d.readCursor }

/-- The bytes `E_START` sends: the slot's fields as they stand (R203), or the read request at the cursor (R204). -/
def Driver.requestBytes (c : Config) (d : Driver) : List Byte :=
  match d.lowestDirty with
  | some i => writeTransferBytes (d.w.get i).regNum (d.w.get i).value (d.w.get i).crc
  | none => readTransferBytes (d.readSlot c d.readCursor).regNum

/-- `E_START(d)` (R205). -/
def State.startTransfer (c : Config) (d : Nat) (s : State) : State :=
  match s.drivers[d]? with
  | none => s
  | some drv => (s.updDriver d Driver.choose).withTr (s.tr.issue c d (drv.requestBytes c))

/-! ### E_DONE -/

/-- The outcome of a WRITE (R208, R209). -/
def Driver.finishWrite (rx : List Byte) (d : Driver) : Driver :=
  match judgeWrite d.lastIfCount rx with
  | none => { d with lastIfCount := ifcntOf rx, numWrites := d.numWrites + 1 }
  | some k => d.record k

/-- An accepted READ of slot `k`: the filtered value is stored and latched, the cursor moves (R213). -/
def Driver.acceptRead (c : Config) (interval : Nat) (rx : List Byte) (k : Nat) (d : Driver) : Driver :=
  let v := plausible c interval d.motorCurrent k (readValueOf rx)
  let x := d.readSlot c k
  { d.setReadSlot k { x with last := v, accum := x.accum ||| v } with
    numReads := d.numReads + 1
    readCursor := (k + 1) % d.maxReadCount
    readCycleDone := d.readCycleDone || (k + 1) % d.maxReadCount == 0 }

/-- The outcome of a READ of slot `k` (R213, R215). -/
def Driver.finishRead (c : Config) (interval : Nat) (rx : List Byte) (k : Nat) (d : Driver) : Driver :=
  match judgeRead (d.readSlot c k).regNum rx with
  | none => d.acceptRead c interval rx k
  | some e => d.record e

/-- `widen(d)` (R246). -/
def Driver.widen (c : Config) (d : Driver) : Driver :=
  { d with
    widened := true, nWrite := c.nWriteExt, maxReadCount := c.nReadExt, readCursor := 0, readCycleDone := false
    w := d.w.mapSlots fun i x =>
      if c.nWriteBase ≤ i.index ∧ i.index < c.nWriteExt then { x with dirty := true } else x }

/-- `bringUpTest(d)` (R244, R247). -/
def Driver.bringUp (c : Config) (d : Driver) : Driver :=
  if d.settled then
    if c.isExtended (d.readSlot c c.identSlot).last && !d.widened then d.widen c else { d with state := .ready }
  else d

/-- What the response does to the driver, by its pending transfer (R206). -/
def Driver.judge (c : Config) (interval : Nat) (rx : List Byte) (d : Driver) : Driver :=
  match d.pending with
  | .write _ => d.finishWrite rx
  | .read k => d.finishRead c interval rx k
  | .none => d

/-- `E_DONE` on the driver: the outcome, `pending <- none`, the bring-up test (R216, R217). -/
def Driver.done (c : Config) (interval : Nat) (rx : List Byte) (d : Driver) : Driver :=
  Driver.bringUp c { d.judge c interval rx with pending := .none }

/-- `fullStepInterval[d]` as the input vector gives it; an index it lacks is a free value (R52; assumption 7). -/
def State.intervalOf (s : State) (d : Nat) : Nat := s.ports.fullStepInterval.getD d (Config.freeInterval s.tr.draws d)

/-- `E_DONE(d)` on the received bytes (R217). -/
def State.finishTransfer (c : Config) (d : Nat) (s : State) : State :=
  s.updDriver d (Driver.done c (s.intervalOf d) s.tr.rx)

/-! ### E_TIMEOUT -/

/-- `E_TIMEOUT` on the driver: the count, the slot marked again, `pending <- none`, the threshold (R221, R222). -/
def Driver.timeOut (d : Driver) : Driver :=
  let u := { d.record .transferTimeout with pending := .none }
  if maxTimeouts < u.numTimeouts.toNat then u.record .driverNotPresent else u

/-- `E_TIMEOUT(d)` (R221). -/
def State.timeOutTransfer (d : Nat) (s : State) : State := (s.updDriver d Driver.timeOut).withTr s.tr.abort

/-! ### GETNEXT -/

/-- The first eligible driver among the next `n` candidates after `k - 1` steps of the rotation (R252). -/
def State.searchNext (s : State) : Nat → Nat → Option Nat
  | 0, _ => none
  | n + 1, k =>
    let i := (s.lastServiced + k) % s.nDrivers
    match s.drivers[i]? with
    | some d => if d.eligible then some i else s.searchNext n (k + 1)
    | none => s.searchNext n (k + 1)

/-- `GETNEXT()` (R252). -/
def State.nextDriver (s : State) : Option Nat := s.searchNext s.nDrivers 1

/-! ### The internal operations as instructions -/

/-- An internal operation on driver `d`, issued as an instruction of its own: it needs a running engine, whose fields are
specified (R22, R58, R352), and a driver that exists (R22) (assumptions 5 and 11). -/
def State.onInternal (s : State) (d : Nat) (k : Driver → Host.Outcome State Fault Refusal) :
    Host.Outcome State Fault Refusal :=
  if s.running then
    match s.drivers[d]? with
    | some drv => k drv
    | none => .fault (.noSuchDriver d)
  else .fault .unspecifiedRead

/-- `E_START(d)` (R205). -/
def execEStart (d : Nat) (s : State) : Host.Outcome State Fault Refusal :=
  s.onInternal d fun _ => .next (s.startTransfer cfg d)

/-- `E_DONE(d)` (R217). It reads the received bytes when a transfer is pending, and only a `T_CHECK` that returned true makes
them valid (R361). -/
def execEDone (d : Nat) (s : State) : Host.Outcome State Fault Refusal :=
  s.onInternal d fun drv =>
    if drv.pending ≠ .none ∧ s.tr.rxValid = false then .fault .unspecifiedRead else .next (s.finishTransfer cfg d)

/-- `E_TIMEOUT(d)` (R221). -/
def execETimeout (d : Nat) (s : State) : Host.Outcome State Fault Refusal :=
  s.onInternal d fun _ => .next (s.timeOutTransfer d)

/-- `GETNEXT()`: the result on the answer port, nothing else changes (R252; assumption 11). It reads `nDrivers` and
`lastServiced`, which are unspecified while `running = 0` (R22, R57, R352). -/
def execGetNext (s : State) : Host.Outcome State Fault Refusal :=
  if s.running then
    match s.nextDriver with
    | some d => .next (s.answer true (BitVec.ofNat 32 d))
    | none => .next (s.answer false 0)
  else .fault .unspecifiedRead

end Sys2Proof.Machine
end

