-- ==== Sys2Proof/Machine/Lifecycle.lean ====
section
/-! DEFINITION. `INIT`, `SPIN`, `SHUTDOWN` and the handling of power (R240 to R265). -/

namespace Sys2Proof.Machine

/-- Driver `d` as `INIT` makes it (R262, the `INIT` column of R57; pins by R43, assumption 23). -/
def initDriver (c : Config) (d : Nat) : Driver :=
  { state := .noPower
    w := WriteFile.build fun i =>
      { regNum := c.wreg i, value := c.wdefault i, crc := slotCrc (c.wreg i) (c.wdefault i), dirty := false }
    r := (List.range c.nReadExt).map fun k => { regNum := c.rreg k, last := 0, accum := 0 }
    numReads := 0, numWrites := 0, readErrors := 0, writeErrors := 0, numTimeouts := 0, lastIfCount := 0
    nWrite := c.nWriteBase, maxReadCount := 0, readCursor := 0, readCycleDone := false, widened := false
    pending := .none, microstepShift := c.defaultMicrostepShift, interpolate := c.defaultInterpolate
    motorCurrent := 0, standstillFraction := c.defaultStandstillFraction, linePin := d, diagPin := d }

/-- `INIT(N)` for an `N` in range (R262, R263). -/
def State.initialise (c : Config) (n : Nat) (s : State) : State :=
  { s with
    tr := s.tr.abort, running := true, currentDriver := none, lastServiced := n - 1
    drivers := (List.range n).map (initDriver c) }

/-- `INIT(N)` (R262); refused for `N` out of range (R128 (f)). -/
def State.initCmd (c : Config) (n : Word) (s : State) : State :=
  if 1 ≤ n.toNat ∧ n.toNat ≤ c.maxDrivers then (s.initialise c n.toNat).answer true 0 else s.refuse

/-- `powerApply(d)` (R242). -/
def Driver.powerApply (c : Config) (d : Driver) : Driver :=
  { d with
    w := d.w.mapSlots fun i x => { x with dirty := decide (i.index < c.nWriteBase) }
    nWrite := c.nWriteBase, widened := false, maxReadCount := c.nReadBase, readCursor := 0, readCycleDone := false
    numTimeouts := 0, lastIfCount := 0, pending := .none, state := .initialising }

/-- A driver without power (R250, R264). -/
def Driver.powerOff (d : Driver) : Driver := { d with state := .noPower, maxReadCount := 0, pending := .none }

/-- Power loss (R250): an in-flight transfer is aborted, every driver goes to `noPower`. -/
def State.losePower (s : State) : State :=
  { s with
    tr := if s.currentDriver.isSome then s.tr.abort else s.tr
    currentDriver := none
    drivers := s.drivers.map Driver.powerOff }

/-- Power-apply for every driver found in `noPower` (R258). -/
def State.applyPower (c : Config) (s : State) : State :=
  { s with drivers := s.drivers.map fun d => if d.state = .noPower then d.powerApply c else d }

/-- The current driver is retired: the scheduler advances (R253, R258). -/
def State.retire (s : State) (d : Nat) : State := { s with lastServiced := d, currentDriver := none }

/-- `elapsed > TRANSFER_TIMEOUT`, elapsed modulo `2^32` (R256, R257). -/
def State.overdue (c : Config) (now : Word) (s : State) : Bool :=
  decide (c.transferTimeout < (now - s.transferStartTime).toNat)

/-- The part of `SPIN` that looks at the transfer in flight: completion first, then the timeout (R258, R259). -/
def State.poll (c : Config) (now : Word) (s : State) : State :=
  match s.currentDriver with
  | none => s
  | some d =>
    match s.tr.check c with
    | some t => ((s.withTr t).finishTransfer c d).retire d
    | none => if s.overdue c now then (s.timeOutTransfer d).retire d else s

/-- The part of `SPIN` that starts the next transfer (R258). -/
def State.startNext (c : Config) (now : Word) (s : State) : State :=
  match s.currentDriver with
  | some _ => s
  | none =>
    match s.nextDriver with
    | none => s
    | some d => { s.startTransfer c d with currentDriver := some d, transferStartTime := now }

/-- `SPIN(now, powered)` while `running = 1` (R258). -/
def State.spin (c : Config) (now : Word) (powered : Bool) (s : State) : State :=
  if powered then ((s.applyPower c).poll c now).startNext c now else s.losePower

/-- `SPIN` as a command (R127, R128 (b)). -/
def State.spinCmd (c : Config) (now : Word) (powered : Bool) (s : State) : State :=
  if s.running then (s.spin c now powered).answer true 0 else s.refuse

/-- `SHUTDOWN()` while `running = 1` (R264). -/
def State.shutDown (s : State) : State :=
  { s with tr := s.tr.abort, currentDriver := none, drivers := s.drivers.map Driver.powerOff, running := false }

/-- `INIT(N)` (R262, R263). -/
def execInit (n : Word) (s : State) : Host.Outcome State Fault Refusal := .next (s.initCmd cfg n)

/-- `SPIN(now, powered)` (R258). -/
def execSpin (now : Word) (powered : Bool) (s : State) : Host.Outcome State Fault Refusal :=
  .next (s.spinCmd cfg now powered)

/-- `SHUTDOWN()` (R264), refused while `running = 0` (R128 (b)). -/
def execShutdown (s : State) : Host.Outcome State Fault Refusal :=
  .next (if s.running then s.shutDown.answer true 0 else s.refuse)

end Sys2Proof.Machine
end

