-- ==== Sys2Proof/Machine/Quantity.lean ====
section
/-! DEFINITION. The configuration and status commands (R280 to R301): each says what it does to one driver and what it
answers, over `State.onDriver`, which makes the refusals of R128. All are accepted in every driver state (R281). -/

namespace Sys2Proof.Machine

/-- `SETCUR(d, mA)` (R282 to R286). -/
def Driver.setCurrent (c : Config) (mA : Nat) (d : Driver) : Driver × Word :=
  let i := clampCurrent c mA
  let range := senseRange c i
  let run := currentCode c range i
  let hold := currentCode c range (holdCurrent c i d.standstillFraction)
  let d1 := { d with motorCurrent := i }.updateRegister .currentConf (withCurrentCodes c d.w.currentConf.value run hold)
  let vs := range == .vs1
  let d2 :=
    if d1.w.chopperConf.value.getLsbD c.vsenseBit = vs then d1
    else d1.updateRegister .chopperConf (withVsense c d1.w.chopperConf.value vs)
  (d2, BitVec.ofNat 32 i)

/-- `SETMS(d, microsteps, interpolate)`; `none` when the count is not valid (R287, R288). -/
def Driver.setMicrosteps (c : Config) (microsteps : Word) (interpolate : Bool) (d : Driver) : Option (Driver × Word) :=
  match microstepShiftOf microsteps with
  | none => none
  | some shift =>
    some ({ d with microstepShift := shift, interpolate := interpolate }.updateRegister .chopperConf
      (withMicrosteps c d.w.chopperConf.value shift interpolate), 0)

/-- `SETSGT(d, t)` (R290). -/
def Driver.setStall (c : Config) (t : Int) (d : Driver) : Driver × Word :=
  let s := (c.stallMap (clamp t (-128) 127)).setWidth 32
  (d.updateRegister .stallThreshold s, s)

/-- `SETSGMIN(d, sps)` (R292). -/
def Driver.setStallMin (c : Config) (sps : Nat) (d : Driver) : Driver × Word :=
  let x := BitVec.ofNat 32 (min (c.tstepOf sps) 0xFFFFF)
  (d.updateRegister .coolThreshold x, x)

/-- `GETACC(d, keep)` (R296). -/
def Driver.takeAccum (c : Config) (keep : Word) (d : Driver) : Driver × Word :=
  let x := d.readSlot c c.statusSlot
  (d.setReadSlot c.statusSlot { x with accum := x.accum &&& keep }, x.accum)

/-- `SETREG(d, name, v)`; `none` when the name is no write slot (R298). -/
def Driver.setRaw (c : Config) (name v : Word) (d : Driver) : Option (Driver × Word) :=
  match regNameOf c name with
  | some (.write i) => some (d.updateRegister i v, 0)
  | _ => none

/-- `GETREG(d, name)`; `none` when the name names nothing (R299). DESIGN CHOICE: a read slot answers its `last` at every
index below `N_READ_EXT`, also one at or beyond `maxReadCount` whose `last` a power cycle has kept (R57); R299's words
that such a slot returns 0 are taken of one that was not read since `INIT` (assumption 27). -/
def Driver.getRaw (c : Config) (name : Word) (d : Driver) : Option Word :=
  match regNameOf c name with
  | some (.write i) => some (d.w.get i).value
  | some (.read k) => some (d.readSlot c k).last
  | some (.diag f) => some (d.diagValue f)
  | none => none

/-- `SETCUR` (R282). -/
def execSetcur (drv : Byte) (mA : Word) (s : State) : Host.Outcome State Fault Refusal :=
  .next (s.onDriver drv fun d => some (d.setCurrent cfg mA.toNat))

/-- `SETMS` (R287). -/
def execSetms (drv : Byte) (microsteps : Word) (interpolate : Bool) (s : State) : Host.Outcome State Fault Refusal :=
  .next (s.onDriver drv fun d => d.setMicrosteps cfg microsteps interpolate)

/-- `GETMS` (R289). -/
def execGetms (drv : Byte) (s : State) : Host.Outcome State Fault Refusal :=
  .next (s.onDriver drv fun d => some (d, microstepAnswer d.microstepShift d.interpolate))

/-- `SETSGT` (R290), the operand signed (R127). -/
def execSetsgt (drv : Byte) (t : Word) (s : State) : Host.Outcome State Fault Refusal :=
  .next (s.onDriver drv fun d => some (d.setStall cfg t.toInt))

/-- `SETSGMIN` (R292). -/
def execSetsgmin (drv : Byte) (sps : Word) (s : State) : Host.Outcome State Fault Refusal :=
  .next (s.onDriver drv fun d => some (d.setStallMin cfg sps.toNat))

/-- `GETLIVE` (R295). -/
def execGetlive (drv : Byte) (s : State) : Host.Outcome State Fault Refusal :=
  .next (s.onDriver drv fun d => some (d, (d.readSlot cfg cfg.statusSlot).last))

/-- `GETACC` (R296). -/
def execGetacc (drv : Byte) (keep : Word) (s : State) : Host.Outcome State Fault Refusal :=
  .next (s.onDriver drv fun d => some (d.takeAccum cfg keep))

/-- `SETREG` (R298). -/
def execSetreg (drv : Byte) (name v : Word) (s : State) : Host.Outcome State Fault Refusal :=
  .next (s.onDriver drv fun d => d.setRaw cfg name v)

/-- `GETREG` (R299). -/
def execGetreg (drv : Byte) (name : Word) (s : State) : Host.Outcome State Fault Refusal :=
  .next (s.onDriver drv fun d => (d.getRaw cfg name).map fun v => (d, v))

end Sys2Proof.Machine
end

