-- ==== Sys2Proof/Machine/Direct.lean ====
section
/-! DEFINITION. The direct commands of the Transport and the codec, the events of the hardware engine, `ENCODEBUF` and the
serial frame (R100, R140 to R153, R160 to R173). -/

namespace Sys2Proof.Machine

/-- A direct command is refused while `running = 1`: the Transport's by R128 (d), the codec's by D3 (assumption 13). -/
def State.onIdleEngine (s : State) (k : State) : State := if s.running then s.refuse else k

/-- The bytes on the write data port, the ones nothing drives free (R125; assumption 7). -/
def State.writePort (s : State) : List Byte := fillTo maxWriteBytes s.ports.wdata (Config.freePortByte s.tr.draws)

/-- `T_START` as a command with `running = 0`: any line the platform has, counts in range, a state in which a transfer may
start; else refused (R163, R128 (e)). -/
def State.startCmd (c : Config) (line writeCount readCount : Nat) (s : State) : State :=
  if line < c.platformLines ∧ 1 ≤ writeCount ∧ writeCount ≤ maxWriteBytes then
    match s.tr.start c line (s.writePort.take writeCount) readCount with
    | some t => (s.withTr { t with draws := t.draws + 1 }).answer true 0
    | none => s.refuse
  else s.refuse

/-- `T_CHECK` as a command: the boolean result, the count and the decoded bytes (R127, R171). DESIGN CHOICE: the spec gives
`res` only for `ok = 1`, and false is a result, not a refusal; with false `res` is 0 here (assumption 26). -/
def State.checkCmd (c : Config) (s : State) : State :=
  match s.tr.check c with
  | some t => (s.withTr t).answer true (BitVec.ofNat 32 t.rxDecoded) t.rxBuf
  | none => s.answer false 0

/-- Samples delivered on the sample port, their number as the result (R143). -/
def State.deliver (s : State) (samples : List Level) : State := s.answer true (BitVec.ofNat 32 samples.length) [] samples

/-- `DECODE` as a command: at most `MAX_READ_BYTES` bytes from the sample port (R153). -/
def State.decodeCmd (c : Config) (expected : Nat) (s : State) : State :=
  let bytes := decodeSamples c.oversample s.ports.sampleIn (min expected maxReadBytes)
  s.answer true (BitVec.ofNat 32 bytes.length) bytes

/-- `T_START` (R163). -/
def execTStart (line : Byte) (writeCount readCount : Word) (s : State) : Host.Outcome State Fault Refusal :=
  .next (s.onIdleEngine (s.startCmd cfg line.toNat writeCount.toNat readCount.toNat))

/-- `T_CHECK` (R171). -/
def execTCheck (s : State) : Host.Outcome State Fault Refusal := .next (s.onIdleEngine (s.checkCmd cfg))

/-- `T_ABORT` (R172). -/
def execTAbort (s : State) : Host.Outcome State Fault Refusal :=
  .next (s.onIdleEngine ((s.withTr s.tr.abort).answer true 0))

/-- `ENCODE` (R140, R143); refused while `running = 1` (D3; assumption 13). -/
def execEncode (b : Byte) (s : State) : Host.Outcome State Fault Refusal :=
  .next (s.onIdleEngine (s.deliver (encodeByte cfg.oversample b)))

/-- `DECODE` (R144, R153); refused while `running = 1` (D3; assumption 13). -/
def execDecode (expected : Word) (s : State) : Host.Outcome State Fault Refusal :=
  .next (s.onIdleEngine (s.decodeCmd cfg expected.toNat))

/-- `ENCODEBUF`: the waveform of the buffer, on the sample port (R142; assumption 10). DESIGN CHOICE: it runs whatever
`running` is, since the spec refuses the direct commands only (assumption 28). -/
def execEncodeBuf (buf : List Byte) (s : State) : Host.Outcome State Fault Refusal :=
  .next (s.deliver (encodeBytes cfg.oversample buf))

/-- `EV_UNIT` (R164 to R169, R173). -/
def execEvUnit (capture : List Level) (s : State) : Host.Outcome State Fault Refusal :=
  .next (s.withTr (s.tr.unitDone cfg capture))

/-- `EV_HWERR` (R170, R173). -/
def execEvHwErr (s : State) : Host.Outcome State Fault Refusal := .next (s.withTr s.tr.hwError)

/-- The frame `F(b)` expanded to samples, on the sample port (R100, R101; assumption 10). DESIGN CHOICE: it runs whatever
`running` is, since the spec refuses the direct commands only (assumption 28). -/
def execFrame (b : Byte) (s : State) : Host.Outcome State Fault Refusal :=
  .next (s.deliver (expandBits cfg.oversample (frameLevels b)))

end Sys2Proof.Machine
end

