-- ==== Sys2Proof/Machine/Wire.lean ====
section
/-! DEFINITION. The wire datagrams as instructions (R107 to R112): a request is issued as a direct use of the Transport
(assumption 9); a response is the remote device's reply, captured in `reading` (assumption 8). -/

namespace Sys2Proof.Machine

/-- The line of a request that names none: a free value among the platform's lines (assumption 9). -/
def State.someLine (c : Config) (s : State) : Nat := Config.freeLine s.tr.draws % c.platformLines

/-- A request issued with 8 bytes to read (R203, R204): refused like a direct `T_START` while a transfer is in progress
(R128 (e)). -/
def State.issueDirect (c : Config) (buf : List Byte) (s : State) : State :=
  match s.tr.start c (s.someLine c) buf maxReadBytes with
  | some t => (s.withTr { t with draws := t.draws + 1 }).answer true 0
  | none => s.refuse

/-- The registers the block writes: `WREG`, never the interface counter (R72, R117, R203). -/
def writesReg (c : Config) (r : RegNum) : Bool := WSlot.all.any fun i => c.wreg i == r

/-- The registers the block reads: the interface counter and `RREG` (R32, R72, R117, R204). -/
def readsReg (c : Config) (r : RegNum) : Bool := r == regIfcnt || (List.range c.nReadExt).any fun k => c.rreg k == r

/-- `WRITE_REQ` as a word: a WRITE transfer, refused for a register that no operation writes (R72, R112, R117). -/
def State.writeReqCmd (c : Config) (regNum : RegNum) (value : Word) (crc : Byte) (s : State) : State :=
  if writesReg c regNum then s.issueDirect c (writeTransferBytes regNum value crc) else s.refuse

/-- `READ_REQ` as a word: a READ transfer, refused for a register that no operation reads (R72, R112, R117). -/
def State.readReqCmd (c : Config) (regNum : RegNum) (crc : Byte) (s : State) : State :=
  if readsReg c regNum then s.issueDirect c (readReqBytes regNum crc) else s.refuse

/-- The samples of a clean reply: idle samples, the frames of the bytes without a gap, idle samples up to the end of the
capture (R176, R178 (c)). The lead is free within the slack of the capture (assumption 8). -/
def replyCapture (c : Config) (draw : Nat) (bytes : List Byte) : List Level :=
  List.replicate (min (Config.freeReplyLead draw) (c.captureSlackBits * c.oversample)) true
    ++ encodeBytes c.oversample bytes ++ List.replicate (captureLen c) true

/-- The remote device sends bytes: captured while the line is input, lost otherwise, since only in `reading` is the line
an input (R176, R181, R371). -/
def State.receiveReply (c : Config) (bytes : List Byte) (s : State) : State :=
  if s.tr.tstate = .reading then s.withTr (s.tr.unitDone c (replyCapture c s.tr.draws bytes)) else s

/-- The bytes of an `IFCNT_RESP` (R109). -/
def ifcntRespBytes (sync addr : Byte) (payloadHi : BitVec 24) (ifcnt crc : Byte) : List Byte :=
  [sync, addr, readRegByte regIfcnt, payloadHi.extractLsb' 16 8, payloadHi.extractLsb' 8 8, payloadHi.extractLsb' 0 8,
    ifcnt, crc]

/-- The bytes of a `READ_RESP` (R111). -/
def readRespBytes (reg : Byte) (value : Word) (crc : Byte) : List Byte :=
  [syncByte, masterAddr, reg] ++ bytesBe value ++ [crc]

/-- `WRITE_REQ`: a WRITE transfer, the request with the `IFCNT_REQ` behind it (R107, R112, R203; assumption 9). -/
def execWriteReq (regNum : RegNum) (value : Word) (crc : Byte) (s : State) : Host.Outcome State Fault Refusal :=
  .next (s.onIdleEngine (s.writeReqCmd cfg regNum value crc))

/-- `IFCNT_REQ`: the read request for the interface counter (R108, R110, R112). -/
def execIfcntReq (s : State) : Host.Outcome State Fault Refusal :=
  .next (s.onIdleEngine (s.issueDirect cfg ifcntReqBytes))

/-- `READ_REQ`: a READ transfer (R110, R112, R204; assumption 9). -/
def execReadReq (regNum : RegNum) (crc : Byte) (s : State) : Host.Outcome State Fault Refusal :=
  .next (s.onIdleEngine (s.readReqCmd cfg regNum crc))

/-- `IFCNT_RESP` (R109). -/
def execIfcntResp (sync addr : Byte) (payloadHi : BitVec 24) (ifcnt crc : Byte) (s : State) :
    Host.Outcome State Fault Refusal :=
  .next (s.receiveReply cfg (ifcntRespBytes sync addr payloadHi ifcnt crc))

/-- `READ_RESP` (R111). -/
def execReadResp (reg : Byte) (value : Word) (crc : Byte) (s : State) : Host.Outcome State Fault Refusal :=
  .next (s.receiveReply cfg (readRespBytes reg value crc))

end Sys2Proof.Machine
end

