-- ==== Sys2Proof/Syntax.lean ====
section
/-! DEFINITION. The operations and encoded forms of R124: one constructor for each row of the opcode table. -/

namespace Sys2Proof

/-- One constructor per row of `spec/opcode_table.json`, in the table's order. Commands carry the operand fields of R127
that they use; datagrams carry the fields of R107 to R111; internal operations carry the driver they act on. -/
inductive Instr where
  /-- `INIT(N)`, code 0x01 (R262). -/
  | init (n : Word)
  /-- `SPIN(now, powered)`, code 0x02 (R258). -/
  | spin (now : Word) (powered : Bool)
  /-- `SHUTDOWN()`, code 0x03 (R264). -/
  | shutdown
  /-- `SETCUR(d, mA)`, code 0x10 (R282). -/
  | setcur (drv : Byte) (mA : Word)
  /-- `SETMS(d, microsteps, interpolate)`, code 0x11 (R287). -/
  | setms (drv : Byte) (microsteps : Word) (interpolate : Bool)
  /-- `GETMS(d)`, code 0x12 (R289). -/
  | getms (drv : Byte)
  /-- `SETSGT(d, t)`, code 0x13, `t` signed (R290). -/
  | setsgt (drv : Byte) (t : Word)
  /-- `SETSGMIN(d, sps)`, code 0x14 (R292). -/
  | setsgmin (drv : Byte) (sps : Word)
  /-- `GETLIVE(d)`, code 0x15 (R295). -/
  | getlive (drv : Byte)
  /-- `GETACC(d, keep)`, code 0x16 (R296). -/
  | getacc (drv : Byte) (keep : Word)
  /-- `SETREG(d, name, v)`, code 0x17 (R298). -/
  | setreg (drv : Byte) (name : Word) (v : Word)
  /-- `GETREG(d, name)`, code 0x18 (R299). -/
  | getreg (drv : Byte) (name : Word)
  /-- `T_START(line, writeBuf, writeCount, readCount)`, code 0x20; the bytes come from the port `wdata` (R163, R125). -/
  | tStart (line : Byte) (writeCount readCount : Word)
  /-- `T_CHECK()`, code 0x21 (R171). -/
  | tCheck
  /-- `T_ABORT()`, code 0x22 (R172). -/
  | tAbort
  /-- `ENCODE`, code 0x30 (R140, R143). -/
  | encode (byte : Byte)
  /-- `DECODE`, code 0x31; the samples come from the sample port (R144, R153). -/
  | decode (expected : Word)
  /-- `ENCODEBUF`: the write waveform of a buffer; internal, no bit pattern (R142). -/
  | encodeBuf (buf : List Byte)
  /-- `EV_UNIT`: transfer unit complete; in `reading` the captured sequence is an operand chosen by the environment; no
  bit pattern (R164 to R169). -/
  | evUnit (capture : List Level)
  /-- `EV_HWERR`: hardware error event, no bit pattern (R170). -/
  | evHwErr
  /-- `E_START(d)`: internal, no bit pattern (R205). -/
  | eStart (d : Nat)
  /-- `E_DONE(d)`: internal, no bit pattern (R217). -/
  | eDone (d : Nat)
  /-- `E_TIMEOUT(d)`: internal, no bit pattern (R221). -/
  | eTimeout (d : Nat)
  /-- `GETNEXT()`: internal, no bit pattern (R252). -/
  | getNext
  /-- The 10-bit serial frame of a byte (R100). -/
  | frame (b : Byte)
  /-- `WRITE_REQ`, 8 bytes, block to chip (R107). -/
  | writeReq (regNum : RegNum) (value : Word) (crc : Byte)
  /-- `IFCNT_REQ`, the constant `05 00 02 CE` (R108). -/
  | ifcntReq
  /-- `IFCNT_RESP`, 8 bytes, chip to block; bytes 0 and 1 and the payload's upper bytes are not tested (R109). -/
  | ifcntResp (sync addr : Byte) (payloadHi : BitVec 24) (ifcnt crc : Byte)
  /-- `READ_REQ`, 4 bytes, block to chip (R110). -/
  | readReq (regNum : RegNum) (crc : Byte)
  /-- `READ_RESP`, 8 bytes, chip to block (R111). -/
  | readResp (reg : Byte) (value : Word) (crc : Byte)
deriving DecidableEq, Repr

/-- What travels in an encoded form: an 80-bit command word (R125), the bytes of a datagram in wire order (R104), or the
10 bits of a frame with `F[t]` at bit `t` (R100). -/
inductive Wire where
  | cmd (w : CmdWord)
  | datagram (bytes : List Byte)
  | frame (f : BitVec 10)
deriving DecidableEq, Repr

end Sys2Proof
end

