-- ==== Sys2Proof/Machine/Dispatch.lean ====
section
/-! DEFINITION. One arm per instruction, each one direct call of its meaning. -/

namespace Sys2Proof.Machine

def exec (i : Instr) (s : State) : Host.Outcome State Fault Refusal :=
  match i with
  | .init n => Sys2Proof.Machine.execInit n s
  | .spin now powered => Sys2Proof.Machine.execSpin now powered s
  | .shutdown => Sys2Proof.Machine.execShutdown s
  | .setcur drv mA => Sys2Proof.Machine.execSetcur drv mA s
  | .setms drv microsteps interpolate => Sys2Proof.Machine.execSetms drv microsteps interpolate s
  | .getms drv => Sys2Proof.Machine.execGetms drv s
  | .setsgt drv t => Sys2Proof.Machine.execSetsgt drv t s
  | .setsgmin drv sps => Sys2Proof.Machine.execSetsgmin drv sps s
  | .getlive drv => Sys2Proof.Machine.execGetlive drv s
  | .getacc drv keep => Sys2Proof.Machine.execGetacc drv keep s
  | .setreg drv name v => Sys2Proof.Machine.execSetreg drv name v s
  | .getreg drv name => Sys2Proof.Machine.execGetreg drv name s
  | .tStart line writeCount readCount => Sys2Proof.Machine.execTStart line writeCount readCount s
  | .tCheck => Sys2Proof.Machine.execTCheck s
  | .tAbort => Sys2Proof.Machine.execTAbort s
  | .encode byte => Sys2Proof.Machine.execEncode byte s
  | .decode expected => Sys2Proof.Machine.execDecode expected s
  | .encodeBuf buf => Sys2Proof.Machine.execEncodeBuf buf s
  | .evUnit capture => Sys2Proof.Machine.execEvUnit capture s
  | .evHwErr => Sys2Proof.Machine.execEvHwErr s
  | .eStart d => Sys2Proof.Machine.execEStart d s
  | .eDone d => Sys2Proof.Machine.execEDone d s
  | .eTimeout d => Sys2Proof.Machine.execETimeout d s
  | .getNext => Sys2Proof.Machine.execGetNext s
  | .frame b => Sys2Proof.Machine.execFrame b s
  | .writeReq regNum value crc => Sys2Proof.Machine.execWriteReq regNum value crc s
  | .ifcntReq => Sys2Proof.Machine.execIfcntReq s
  | .ifcntResp sync addr payloadHi ifcnt crc => Sys2Proof.Machine.execIfcntResp sync addr payloadHi ifcnt crc s
  | .readReq regNum crc => Sys2Proof.Machine.execReadReq regNum crc s
  | .readResp reg value crc => Sys2Proof.Machine.execReadResp reg value crc s

end Sys2Proof.Machine
end

