-- ==== Sys2Proof/WellFormed.lean ====
section
/-! DEFINITION. Which instructions the spec's encodings write: the checks on a term that its operand widths do not make. -/

namespace Sys2Proof

open Sys2Proof.Machine in
/-- A term the spec's own forms can be. A request carries the CRC of its own bytes (R107, R110). `READ_REQ` for register
`0x02` is the form `IFCNT_REQ` (R108, R110). A `READ_RESP` repeats a register number with bit 7 clear (R111), and one for
register `0x02` is written as `IFCNT_RESP` (assumption 16). A buffer handed to `ENCODEBUF` fits the write buffer (R48). -/
def Instr.wf : Instr → Bool
  | .encodeBuf buf => buf.length ≤ maxWriteBytes
  | .writeReq r v crc => crc == crc8 ([syncByte, slaveAddr, writeRegByte r] ++ bytesBe v)
  | .readReq r crc => r != regIfcnt && crc == crc8 [syncByte, slaveAddr, readRegByte r]
  | .readResp reg _ _ => !reg.msb && reg != readRegByte regIfcnt
  | _ => true

/-- The rows that have a bit pattern; internal operations and events have none (R131). -/
def Instr.hasPattern : Instr → Bool
  | .encodeBuf _ | .evUnit _ | .evHwErr | .eStart _ | .eDone _ | .eTimeout _ | .getNext => false
  | _ => true

end Sys2Proof
end

