-- ==== Sys2Proof/Decode.lean ====
section
/-! DEFINITION. Decoding of command words, datagrams and frames, total and rejecting by name, and the encoder beside it.
The forms are those of R100, R104, R107 to R111, R125 to R127. -/

namespace Sys2Proof

open Sys2Proof.Machine

/-- Why a word is no encoded form of an operation. -/
inductive DecodeError where
  /-- A command code outside the table of R126: the command port refuses it (R128 (a)). -/
  | reservedOp (op : Byte)
  /-- A datagram of a length other than 4 or 8 bytes (R104). -/
  | badLength (n : Nat)
  /-- A 4-byte datagram that is no read request (R110). -/
  | noRequest
  /-- An 8-byte datagram that matches none of R107, R109, R111. -/
  | noDatagram
  /-- Ten bits whose start bit is 1 or whose stop bit is 0 (R100, R118). -/
  | noFrame
deriving DecidableEq, Repr

/-- Field `op` of a command word (R125). -/
def cmdOp (w : CmdWord) : Byte := w.extractLsb' 72 8

/-- Field `drv` of a command word (R125). -/
def cmdDrv (w : CmdWord) : Byte := w.extractLsb' 64 8

/-- Field `a` of a command word (R125). -/
def cmdA (w : CmdWord) : Word := w.extractLsb' 32 32

/-- Field `b` of a command word (R125). -/
def cmdB (w : CmdWord) : Word := w.extractLsb' 0 32

/-- A command word read by its fields (R126, R127); unused fields are ignored (R125). -/
def decodeFields (op drv : Byte) (a b : Word) : Except DecodeError Instr :=
  match op.toNat with
  | 0x01 => .ok (.init a)
  | 0x02 => .ok (.spin a (b.getLsbD 0))
  | 0x03 => .ok .shutdown
  | 0x10 => .ok (.setcur drv a)
  | 0x11 => .ok (.setms drv a (b.getLsbD 0))
  | 0x12 => .ok (.getms drv)
  | 0x13 => .ok (.setsgt drv a)
  | 0x14 => .ok (.setsgmin drv a)
  | 0x15 => .ok (.getlive drv)
  | 0x16 => .ok (.getacc drv a)
  | 0x17 => .ok (.setreg drv a b)
  | 0x18 => .ok (.getreg drv a)
  | 0x20 => .ok (.tStart drv a b)
  | 0x21 => .ok .tCheck
  | 0x22 => .ok .tAbort
  | 0x30 => .ok (.encode (a.extractLsb' 0 8))
  | 0x31 => .ok (.decode a)
  | _ => .error (.reservedOp op)

/-- An 80-bit command word (R125, R126). -/
def decodeCmd (w : CmdWord) : Except DecodeError Instr := decodeFields (cmdOp w) (cmdDrv w) (cmdA w) (cmdB w)

/-- A datagram of 4 or 8 bytes in wire order (R104). The 4-byte constant `05 00 02 CE` is `IFCNT_REQ`, every other read
request `READ_REQ` (R108, R110). Of the 8-byte forms bit 7 of byte 2 marks `WRITE_REQ` (R107), a register byte `0x02` makes
an `IFCNT_RESP` (R109, assumption 16), and `05 FF` begins a `READ_RESP` (R111). A CRC byte is a field, not a condition:
the forms are those of the table's match and mask. -/
def decodeDatagram : List Byte → Except DecodeError Instr
  | [b0, b1, b2, b3] =>
    if b0 = syncByte ∧ b1 = slaveAddr ∧ b2.msb = false then
      if b2 = readRegByte regIfcnt ∧ b3 = ifcntReqCrc then .ok .ifcntReq else .ok (.readReq (regOfByte b2) b3)
    else .error .noRequest
  | [b0, b1, b2, b3, b4, b5, b6, b7] =>
    if b0 = syncByte ∧ b1 = slaveAddr ∧ b2.msb = true then .ok (.writeReq (regOfByte b2) (be32 b3 b4 b5 b6) b7)
    else if b2 = readRegByte regIfcnt then .ok (.ifcntResp b0 b1 (b3 ++ b4 ++ b5) b6 b7)
    else if b0 = syncByte ∧ b1 = masterAddr then .ok (.readResp b2 (be32 b3 b4 b5 b6) b7)
    else .error .noDatagram
  | bytes => .error (.badLength bytes.length)

/-- A 10-bit frame: start bit 0 at bit 0, stop bit 1 at bit 9, the byte at bits 8..1 (R100). -/
def decodeFrame (f : BitVec 10) : Except DecodeError Instr :=
  if f.getLsbD 0 = false ∧ f.getLsbD 9 = true then .ok (.frame (f.extractLsb' 1 8)) else .error .noFrame

/-- The decoder: every encoded form of the spec, total. -/
def decode : Wire → Except DecodeError Instr
  | .cmd w => decodeCmd w
  | .datagram bytes => decodeDatagram bytes
  | .frame f => decodeFrame f

/-- A command word from its four fields (R125). -/
def cmdWord (op drv : Byte) (a b : Word) : CmdWord := op ++ drv ++ a ++ b

/-- A flag in bit 0 of an operand field, the other bits zero (R125, R127). -/
def flagField (x : Bool) : Word := if x then 1 else 0

/-- The encoder: the encoded form of an instruction, `none` for the operations and events that have no bit pattern
(R131). Unused fields of a command word are zero (R125). -/
def encode : Instr → Option Wire
  | .init n => some (.cmd (cmdWord 0x01 0 n 0))
  | .spin now p => some (.cmd (cmdWord 0x02 0 now (flagField p)))
  | .shutdown => some (.cmd (cmdWord 0x03 0 0 0))
  | .setcur d mA => some (.cmd (cmdWord 0x10 d mA 0))
  | .setms d m i => some (.cmd (cmdWord 0x11 d m (flagField i)))
  | .getms d => some (.cmd (cmdWord 0x12 d 0 0))
  | .setsgt d t => some (.cmd (cmdWord 0x13 d t 0))
  | .setsgmin d sps => some (.cmd (cmdWord 0x14 d sps 0))
  | .getlive d => some (.cmd (cmdWord 0x15 d 0 0))
  | .getacc d keep => some (.cmd (cmdWord 0x16 d keep 0))
  | .setreg d name v => some (.cmd (cmdWord 0x17 d name v))
  | .getreg d name => some (.cmd (cmdWord 0x18 d name 0))
  | .tStart l wc rc => some (.cmd (cmdWord 0x20 l wc rc))
  | .tCheck => some (.cmd (cmdWord 0x21 0 0 0))
  | .tAbort => some (.cmd (cmdWord 0x22 0 0 0))
  | .encode b => some (.cmd (cmdWord 0x30 0 (0#24 ++ b) 0))
  | .decode n => some (.cmd (cmdWord 0x31 0 n 0))
  | .frame b => some (.frame (1#1 ++ b ++ 0#1))
  | .writeReq r v crc => some (.datagram ([syncByte, slaveAddr, writeRegByte r] ++ bytesBe v ++ [crc]))
  | .ifcntReq => some (.datagram [syncByte, slaveAddr, readRegByte regIfcnt, ifcntReqCrc])
  | .ifcntResp b0 b1 hi n crc =>
    some (.datagram [b0, b1, readRegByte regIfcnt, hi.extractLsb' 16 8, hi.extractLsb' 8 8, hi.extractLsb' 0 8, n, crc])
  | .readReq r crc => some (.datagram [syncByte, slaveAddr, readRegByte r, crc])
  | .readResp reg v crc => some (.datagram ([syncByte, masterAddr, reg] ++ bytesBe v ++ [crc]))
  | .encodeBuf _ => none
  | .evUnit _ => none
  | .evHwErr => none
  | .eStart _ => none
  | .eDone _ => none
  | .eTimeout _ => none
  | .getNext => none

/-- The form that `nbits` bits of a word `w` are presented as, the missing upper bits zero: a frame up to 16 bits, a
datagram of 4 bytes up to 32, of 8 bytes up to 64 (R104), a command word up to 80 (R125). DESIGN CHOICE: a width between the
forms is read as the next longer form (assumption 30). -/
def wireOf (nbits w : Nat) : Option Wire :=
  if nbits = 0 ∨ 80 < nbits then none
  else if 2 ^ nbits ≤ w then none
  else if nbits ≤ 16 then if w < 1024 then some (.frame (BitVec.ofNat 10 w)) else none
  else if nbits ≤ 32 then some (.datagram (wireBytes 4 w))
  else if nbits ≤ 64 then some (.datagram (wireBytes 8 w))
  else some (.cmd (BitVec.ofNat 80 w))

/-- The instruction the decoder reads from an instruction whose bits are `w`, numbered as the opcode table numbers
them. -/
def decodeTableWord (nbits w : Nat) : Option Instr :=
  match wireOf nbits w with
  | none => none
  | some x =>
    match decode x with
    | .ok i => some i
    | .error _ => none

end Sys2Proof
end

