-- ==== Sys2Proof/Machine/Fetch.lean ====
section
/-! DEFINITION. What the next arrival at the block is: an operation to execute, a change from outside that needs no
operation, or a word that is no encoded form (R7, R125, R128 (a), R129; assumptions 12 and 17). -/

namespace Sys2Proof.Machine

/-- The next thing to happen. -/
inductive Fetched where
  /-- Nothing has arrived: the block does nothing of its own accord (R351). -/
  | quiet
  /-- An operation or event, and the state without its arrival. -/
  | run (i : Instr) (s : State)
  /-- The arrival has had its whole effect. -/
  | settled (s : State)
  /-- A word that is no encoded form. -/
  | noForm (nbits w : Nat)
deriving DecidableEq, Repr

/-- A word that the decoder rejects: a reserved command code is refused (R128 (a)); eight bytes that are no form of a
datagram are a malformed reply, received as it stands (R116); anything else is no form (R117, R118; assumption 17). -/
def State.rejectWord (nbits w : Nat) (x : Wire) (s : State) : Fetched :=
  match x with
  | .cmd _ => .settled s.refuse
  | .datagram bytes => if bytes.length = 8 then .settled (s.receiveReply cfg bytes) else .noForm nbits w
  | .frame _ => .noForm nbits w

/-- A word that has arrived, decoded. -/
def State.fetchWord (nbits w : Nat) (s : State) : Fetched :=
  match wireOf nbits w with
  | none => .noForm nbits w
  | some x =>
    match decode x with
    | .ok i => .run i s
    | .error _ => s.rejectWord nbits w x

/-- The next arrival taken from the front of `inQ`. -/
def State.fetch (s : State) : Fetched :=
  match s.inQ with
  | [] => .quiet
  | .word nbits w :: rest => { s with inQ := rest }.fetchWord nbits w
  | .evUnit capture :: rest => .run (.evUnit capture) { s with inQ := rest }
  | .evHwErr :: rest => .run .evHwErr { s with inQ := rest }
  | .tick lineIn hwErr :: rest => .settled { s with inQ := rest, tr := s.tr.tick cfg lineIn hwErr }
  | .ports p :: rest => .settled { s with inQ := rest, ports := p }

end Sys2Proof.Machine
end

