-- ==== Sys2Proof/Machine/Step.lean ====
section
/-! DEFINITION. One step of the block: one command, event or other arrival, to completion (R7, R129). -/

namespace Sys2Proof.Machine

/-- One step. With nothing arrived the block stays as it is (R351). -/
def step (s : State) : Host.Outcome State Fault Refusal :=
  match s.fetch with
  | .quiet => .next s
  | .run i s' => exec i s'
  | .settled s' => .next s'
  | .noForm nbits w => .refused (.noSuchForm nbits w)

/-- A word placed as the next arrival, before everything that is still to arrive. -/
def State.withFetchWord (s : State) (nbits w : Nat) : State := { s with inQ := .word nbits w :: s.inQ }

end Sys2Proof.Machine
end

