-- ==== Sys2Proof/Safety.lean ====
section
/-! DEFINITION. What a claim may assume of a reachable state: the invariants the spec states of the Transport, of a driver
and of the bus, and what a safe run is. -/

namespace Sys2Proof.Machine

/-- The invariants of the Transport: `writeSync` is never observed (R161); the line is an input exactly in `reading`, and
high whenever no transfer is in progress (R181); the counts stay in their ranges (R48, R49, R181); the buffers have their
sizes (R48 to R50); during a capture the samples stored and the ticks left make the capture length (R176). -/
structure Transport.Inv (c : Config) (t : Transport) : Prop where
  notWriteSync : t.tstate ≠ .writeSync
  dirInput : t.lineDir = .input ↔ t.tstate = .reading
  quietHigh : t.tstate.inTransfer = false → t.lineLevel = true
  counts : t.tstate ≠ .idle →
    t.txQueued ≤ t.txCount ∧ 1 ≤ t.txCount ∧ t.txCount ≤ maxWriteBytes ∧ 1 ≤ t.rxCount ∧ t.rxCount ≤ maxReadBytes
  txSize : t.txBuf.length = maxWriteBytes
  rxSize : t.rxBuf.length = t.rxDecoded ∧ t.rxDecoded ≤ maxReadBytes
  capturing : t.tstate = .reading → t.sampleCount = t.samples.length ∧ t.samples.length + t.timer = captureLen c ∧ 0 < t.timer
  captured : t.tstate = .complete → t.sampleCount = captureLen c ∧ t.samples.length = captureLen c

/-- The invariants of driver `i`: constant register numbers and a CRC that always belongs to the value (R29, R34); the
read-register count is nonzero exactly while the driver is polled (R251) and is that of its set (R40); the cursor stays in
the list (R40); a pending transfer names an active slot of a polled driver (R41); pins are the index (R43). -/
structure Driver.Inv (c : Config) (i : Nat) (d : Driver) : Prop where
  slots : ∀ j, (d.w.get j).regNum = c.wreg j ∧ (d.w.get j).crc = slotCrc (c.wreg j) (d.w.get j).value
  readRegs : d.r.map ReadSlot.regNum = (List.range c.nReadExt).map c.rreg
  polled : d.maxReadCount ≠ 0 ↔ d.state = .initialising ∨ d.state = .ready
  readSet : d.maxReadCount ≠ 0 → d.maxReadCount = if d.widened then c.nReadExt else c.nReadBase
  writeSet : d.nWrite = if d.widened then c.nWriteExt else c.nWriteBase
  cursor : d.maxReadCount ≠ 0 → d.readCursor < d.maxReadCount
  pendingPolled : d.pending ≠ .none → d.maxReadCount ≠ 0
  pendingWrite : ∀ j, d.pending = .write j → j.index < d.nWrite
  pendingRead : ∀ k, d.pending = .read k → k < d.maxReadCount
  pins : d.linePin = i ∧ d.diagPin = i

/-- The invariants of the block: those of its parts; while running there are 1 to `MAX_DRIVERS` drivers and `lastServiced`
is one of them (R22, R24); exactly the current driver has a pending transfer (R23); the current driver's transfer is in the
Transport on its own line, and while the engine runs with no current driver the Transport is idle (R360). -/
structure State.Inv (c : Config) (s : State) : Prop where
  transport : s.tr.Inv c
  driver : ∀ (i : Nat) (d : Driver), s.drivers[i]? = some d → d.Inv c i
  count : s.running = true → 1 ≤ s.nDrivers ∧ s.nDrivers ≤ c.maxDrivers ∧ s.lastServiced < s.nDrivers
  current : ∀ (i : Nat) (d : Driver), s.drivers[i]? = some d → (s.currentDriver = some i ↔ d.pending ≠ .none)
  currentInRange : ∀ i, s.currentDriver = some i → i < s.nDrivers ∧ s.running = true
  inFlight : ∀ i, s.currentDriver = some i → s.tr.tstate ≠ .idle ∧ s.tr.lineSel = i
  engineIdle : s.running = true → s.currentDriver = none → s.tr.tstate = .idle

/-- The commands that take a driver operand (R127). -/
def driverOperand : Instr → Option Byte
  | .setcur d _ | .setms d _ _ | .getms d | .setsgt d _ | .setsgmin d _ | .getlive d | .getacc d _ | .setreg d _ _
  | .getreg d _ => some d
  | _ => none

/-- The Transport after `n` ticks without a hardware fault, `lineIn k` being the line level of the tick after `k` others
(R53, R333). -/
def Transport.afterTicks (c : Config) (lineIn : Nat → Level) : Nat → Transport → Transport
  | 0, t => t
  | n + 1, t => (Transport.afterTicks c lineIn n t).tick c (lineIn n) false

/-- The Transport after `n` events `EV_UNIT` (R160). -/
def Transport.afterUnits (c : Config) (capture : List Level) : Nat → Transport → Transport
  | 0, t => t
  | n + 1, t => (Transport.afterUnits c capture n t).unitDone c capture

/-- A run of `n` steps that no fault and no refusal ends. -/
def safeFor : Nat → State → Prop
  | 0, _ => True
  | n + 1, s => ∃ t, step s = .next t ∧ safeFor n t

end Sys2Proof.Machine
end

