-- ==== Sys2Proof/Certificates/Slice0/Obligations.lean ====
section
/-! DEFINITION. The statements for the provers. Where a statement rests on a convention of the model and not of the spec, its
docstring names the log entry; that the data ports of an answer are empty where nothing is delivered is log entry 19 in every
statement that says so. Where it rests on a rule that the spec marks as its own inference, the docstring says so. `cfg` is any
assignment that meets R10, so each statement holds for all of them. -/

open Sys2Proof Sys2Proof.Machine

/-! ### The codec -/

/-- R140: `Encode(b)` as the concatenation of ten runs, its length, and its samples as the bits of the 10-bit integer
`F(b) = 0x200 | (b << 1)` of R100. -/
def Obligations.EncodeIsTheExpandedFrame : Prop :=
  ∀ (os : Nat) (b : Byte),
    encodeByte os b = List.replicate os false ++ (List.range 8).flatMap (fun j => List.replicate os (b.getLsbD j))
        ++ List.replicate os true ∧
    (encodeByte os b).length = 10 * os ∧
    ∀ t s : Nat, t < 10 → s < os →
      (encodeByte os b)[t * os + s]? = some ((0x200#10 ||| (b.setWidth 10 <<< 1)).getLsbD t)

/-- The round trip of R151, which the spec marks as derived from R144: for every `os >= 2` and every buffer, with any
number of idle samples before the first frame, between frames and after the last; for `os = 1` the round trip fails. -/
def Obligations.CodecRoundTrip : Prop :=
  (∀ (os : Nat) (frames : List (Nat × Byte)) (tail : Nat), 2 ≤ os →
    decodeSamples os
      (frames.flatMap (fun p => List.replicate p.1 true ++ encodeByte os p.2) ++ List.replicate tail true)
      frames.length = frames.map Prod.snd) ∧
  ∃ b : Byte, decodeSamples 1 (encodeByte 1 b) 1 ≠ [b]

/-- R148 and R150: a stop position that samples low ends the decoding with the bytes emitted so far, whatever follows, and
no decoding gives more bytes than were asked for. -/
def Obligations.LowStopBitEndsDecoding : Prop :=
  (∀ (os : Nat) (good : List Byte) (bad : Byte) (rest : List Level) (n : Nat), 2 ≤ os →
    decodeSamples os
      (encodeBytes os good ++ expandBits os ((frameLevels bad).take 9) ++ List.replicate os false ++ rest) n
      = good.take n) ∧
  ∀ (os : Nat) (S : List Level) (n : Nat), (decodeSamples os S n).length ≤ n

/-- R143, R153 with `running = 0`, and for `ENCODEBUF` and `FRAME` R142 and R101 in every state (the model's choice,
log entry 28), with the answer on the sample port (log entry 10): what the codec operations answer; nothing but the answer
ports changes. -/
def Obligations.CodecOperationsAnswer : Prop :=
  ∀ (s : State) (b : Byte) (n : Word) (buf : List Byte),
    (s.running = false → exec (.encode b) s = .next { s with reply :=
      { ok := true, res := BitVec.ofNat 32 (10 * cfg.oversample), rdata := [], sampleOut := encodeByte cfg.oversample b } }) ∧
    (exec (.frame b) s = .next { s with reply :=
      { ok := true, res := BitVec.ofNat 32 (10 * cfg.oversample), rdata := [], sampleOut := encodeByte cfg.oversample b } }) ∧
    (exec (.encodeBuf buf) s = .next { s with reply :=
      { ok := true, res := BitVec.ofNat 32 (10 * cfg.oversample * buf.length), rdata := []
        sampleOut := buf.flatMap (encodeByte cfg.oversample) } }) ∧
    ∃ bytes : List Byte,
      bytes = decodeSamples cfg.oversample s.ports.sampleIn (min n.toNat 8) ∧ bytes.length ≤ 8 ∧
      (s.running = false → exec (.decode n) s = .next { s with reply :=
        { ok := true, res := BitVec.ofNat 32 bytes.length, rdata := bytes, sampleOut := [] } })

/-! ### CRC and encodings -/

/-- R114, which the spec marks as derived from R113: flipping any single bit of a byte string changes its `CRC8`, and a
string with its own CRC appended has `CRC8 = 0`. -/
def Obligations.CrcDetectsBitFlips : Prop :=
  (∀ (bytes : List Byte) (i j : Nat) (h : i < bytes.length), j < 8 →
    crc8 (bytes.set i (bytes[i] ^^^ (1#8 <<< j))) ≠ crc8 bytes) ∧
  ∀ bytes : List Byte, crc8 (bytes ++ [crc8 bytes]) = 0

/-- R108 and R113: known values of `CRC8`. -/
def Obligations.CrcKnownValues : Prop :=
  crc8 [] = 0x00 ∧ crc8 [0x05, 0x00, 0x02] = 0xCE ∧ crc8 [0x05, 0x00, 0x06] = 0xD2 ∧
  crc8 [0x05, 0x00, 0x90, 0x00, 0x00, 0x1F, 0x0F] = 0xB6

/-- Every row with a bit pattern is encoded, and a well-formed instruction is read back from its encoding (R100, R107 to
R111, R125 to R127). -/
def Obligations.DecodeEncodeAgree : Prop :=
  ∀ i : Instr, i.hasPattern = true → ∃ w : Wire, encode i = some w ∧ (i.wf = true → decode w = .ok i)

/-- A datagram or a frame that decodes is the encoding of what it decodes to: no bit of it is dropped (R100, R104, R107 to
R111). -/
def Obligations.EncodeDecodeAgree : Prop :=
  ∀ (w : Wire) (i : Instr), (∀ x, w ≠ .cmd x) → decode w = .ok i → encode i = some w

/-- Words written out from the tables of R100, R107 to R111, R126, R127. That the ten bits of R100 are read from a 16-bit word
is the model's choice (log entry 30). -/
def Obligations.WordsOfTheSpec : Prop :=
  decodeTableWord 80 0x01000000000200000000 = some (.init 2) ∧
  decodeTableWord 80 0x11010000001000000001 = some (.setms 1 16 true) ∧
  decodeTableWord 80 0x170000000004C10D0024 = some (.setreg 0 0x04 0xC10D0024) ∧
  decodeTableWord 80 0x20000000000C00000008 = some (.tStart 0 12 8) ∧
  decodeTableWord 80 0x40000000000000000000 = none ∧
  decodeTableWord 16 0x34A = some (.frame 0xA5) ∧
  decodeTableWord 32 0x050006D2 = some (.readReq 0x06 0xD2) ∧
  decodeTableWord 32 0x050002CE = some .ifcntReq ∧
  decodeTableWord 64 0x05009000001F0FB6 = some (.writeReq 0x10 0x00001F0F 0xB6) ∧
  decodeTableWord 64 0x0500020000000472 = some (.ifcntResp 0x05 0x00 0 0x04 0x72) ∧
  decodeTableWord 64 0x05FF062100004051 = some (.readResp 0x06 0x21000040 0x51)

/-- R128 (a): a command word whose code is not in the table of R126 is refused: `ok = 0`, `res = 0`, no state changes. -/
def Obligations.ReservedCodeRefused : Prop :=
  ∀ (s : State) (w : CmdWord) (rest : List Input),
    (w.extractLsb' 72 8).toNat ∉ [0x01, 0x02, 0x03, 0x10, 0x11, 0x12, 0x13, 0x14, 0x15, 0x16, 0x17, 0x18, 0x20, 0x21, 0x22,
      0x30, 0x31] →
    step { s with inQ := .word 80 w.toNat :: rest }
      = .next { s with inQ := rest, reply := { ok := false, res := 0, rdata := [], sampleOut := [] } }

/-! ### The step, reset and the invariant -/

/-- A step runs the decoded instruction: the word in front of what is still to arrive, or the event in front of it, is
executed on the state without it (R7, R129; log entry 12 on the arrivals). A tick in front is one tick of the Transport at
the level it carries (log entry 18), and new data in front stand on the input ports (log entry 7). That a word of a width
between the forms is read as the next longer form is the model's choice (log entry 30). -/
def Obligations.StepRunsTheDecodedInstruction : Prop :=
  ∀ (s : State) (rest : List Input),
    (∀ (nbits w : Nat) (x : Wire) (i : Instr), s.inQ = .word nbits w :: rest → wireOf nbits w = some x →
      decode x = .ok i → step s = exec i { s with inQ := rest }) ∧
    (∀ capture : List Level, s.inQ = .evUnit capture :: rest → step s = exec (.evUnit capture) { s with inQ := rest }) ∧
    (s.inQ = .evHwErr :: rest → step s = exec .evHwErr { s with inQ := rest }) ∧
    (∀ (lineIn : Level) (hwErr : Bool), s.inQ = .tick lineIn hwErr :: rest →
      step s = .next { s with inQ := rest, tr := s.tr.tick cfg lineIn hwErr }) ∧
    ∀ p : Ports, s.inQ = .ports p :: rest → step s = .next { s with inQ := rest, ports := p }

/-- R57 and R351: after hardware reset the engine does not run, the Transport is idle, every line is output at level 1, and
the block does nothing of its own accord. -/
def Obligations.ResetIsQuiet : Prop :=
  State.reset.running = false ∧ State.reset.tr.tstate = .idle ∧
  (∀ line : Nat, State.reset.dirOfLine line = .output ∧ State.reset.levelOfLine line = true) ∧
  step State.reset = .next State.reset

/-- The state after hardware reset meets the invariant, under every assignment. Parts of it rest on the values log entry 4
names. -/
def Obligations.ResetMeetsTheInvariant : Prop := ∀ c : Config, State.reset.Inv c

/-- Every step keeps the invariant (R22 to R24, R29, R40, R161, R251, R360, and R41 and R181, which the spec marks as
derived). -/
def Obligations.StepKeepsTheInvariant : Prop :=
  ∀ s t : State, s.Inv cfg → step s = .next t → t.Inv cfg

/-! ### The Transport -/

/-- R163 with `running = 0`: an accepted `T_START`, the write port carrying its 12 bytes. Nothing but the Transport and the
answer changes. From here the read buffer is not valid until a `T_CHECK` returns true (R361; log entry 5 on `rxValid`). -/
def Obligations.TStartStartsATransfer : Prop :=
  ∀ (s : State) (line : Byte) (wc rc : Word), s.running = false → line.toNat < cfg.platformLines →
    (s.tr.tstate = .idle ∨ s.tr.tstate = .complete ∨ s.tr.tstate = .error) →
    1 ≤ wc.toNat → wc.toNat ≤ 12 → 1 ≤ rc.toNat → rc.toNat ≤ 8 → s.ports.wdata.length = 12 →
    ∃ t : Transport,
      exec (.tStart line wc rc) s
        = .next { s with tr := t, reply := { ok := true, res := 0, rdata := [], sampleOut := [] } } ∧
      t.lineSel = line.toNat ∧ t.txBuf = s.ports.wdata.take wc.toNat ++ s.tr.txBuf.drop wc.toNat ∧
      t.txCount = wc.toNat ∧ t.rxCount = rc.toNat ∧ t.txQueued = min cfg.preloadBytes wc.toNat ∧
      t.lineDir = .output ∧ t.lineLevel = true ∧ t.sampleCount = 0 ∧ t.tstate = .writing ∧
      t.rxBuf = s.tr.rxBuf ∧ t.rxDecoded = s.tr.rxDecoded ∧ t.rxValid = false

/-- R163, R128 (e): `T_START` in the middle of a transfer, with a count out of range or on a line the platform lacks is
refused and changes nothing. -/
def Obligations.TStartRefused : Prop :=
  ∀ (s : State) (line : Byte) (wc rc : Word), s.running = false →
    (¬(s.tr.tstate = .idle ∨ s.tr.tstate = .complete ∨ s.tr.tstate = .error) ∨ wc.toNat = 0 ∨ 12 < wc.toNat ∨
      rc.toNat = 0 ∨ 8 < rc.toNat ∨ cfg.platformLines ≤ line.toNat) →
    exec (.tStart line wc rc) s = .next { s with reply := { ok := false, res := 0, rdata := [], sampleOut := [] } }

/-- R164, R165: `EV_UNIT` while writing queues one more byte while bytes remain, and enters `delay` with the timer armed for
the first guard once all are queued; the line state and the buffers do not change. -/
def Obligations.EvUnitWhileWriting : Prop :=
  ∀ (s : State) (capture : List Level), s.tr.tstate = .writing →
    (s.tr.txQueued < s.tr.txCount →
      ∃ n : Nat, exec (.evUnit capture) s
        = .next { s with tr := { s.tr with txQueued := s.tr.txQueued + 1, timer := n } }) ∧
    (s.tr.txCount ≤ s.tr.txQueued →
      exec (.evUnit capture) s = .next { s with tr := { s.tr with tstate := .delay, timer := cfg.guard1Ticks } })

/-- R166, R167, R168: `EV_UNIT` in the guard states; the last one switches the line to input and arms the capture of
`CAPTURE_LEN` samples. -/
def Obligations.EvUnitInTheGuards : Prop :=
  ∀ (s : State) (capture : List Level),
    (s.tr.tstate = .delay →
      exec (.evUnit capture) s = .next { s with tr := { s.tr with tstate := .readSync1, timer := cfg.guard2aTicks } }) ∧
    (s.tr.tstate = .readSync1 →
      exec (.evUnit capture) s = .next { s with tr := { s.tr with tstate := .readSync2, timer := cfg.guard2bTicks } }) ∧
    (s.tr.tstate = .readSync2 →
      ∃ S : List Level, exec (.evUnit capture) s
        = .next { s with tr := { s.tr with
            tstate := .reading, lineDir := .input, sampleCount := 0, samples := S
            timer := (8 * 10 + cfg.captureSlackBits) * cfg.oversample } })

/-- R169 at the event level: the final `EV_UNIT` of a capture stores the captured line levels, restores the line and
completes; no byte is decoded yet. `draws` is the model's own count of free values (log entry 6). -/
def Obligations.EvUnitCompletesTheCapture : Prop :=
  ∀ (s : State) (capture : List Level), s.tr.tstate = .reading → s.tr.samples = [] → capture.length = captureLen cfg →
    ∃ n m : Nat, exec (.evUnit capture) s
      = .next { s with tr := { s.tr with
          tstate := .complete, samples := capture, sampleCount := captureLen cfg, lineDir := .output, lineLevel := true
          timer := n, draws := m } }

/-- R170, R324: a hardware error during a transfer stops the engine and the capture, restores the line and leaves `error`;
the samples it leaves are unspecified, and no later tick changes anything. Reported in a tick, it is delivered before the
`EV_UNIT` that falls due in it, which then finds `error` and is ignored (R324). That it also comes before that
tick's sample, so that the tick does what the error alone does and leaves `sampleCount` and `driven` as they were, is the
model's choice (log entry 18): R324 orders it only before `EV_UNIT`, and R176 stores a sample each tick. -/
def Obligations.HardwareErrorEndsTheTransfer : Prop :=
  ∀ s : State, (s.tr.tstate = .writing ∨ s.tr.tstate = .delay ∨ s.tr.tstate = .readSync1 ∨ s.tr.tstate = .readSync2 ∨
      s.tr.tstate = .reading) →
    ∃ (S : List Level) (n : Nat) (t : Transport),
      t = { s.tr with tstate := .error, lineDir := .output, lineLevel := true, samples := S, timer := n } ∧
      exec .evHwErr s = .next { s with tr := t } ∧
      (∀ (lineIn : Level) (hwErr : Bool), t.tick cfg lineIn hwErr = t) ∧
      ∀ (lineIn : Level) (rest : List Input),
        step { s with inQ := .tick lineIn true :: rest } = .next { s with inQ := rest, tr := t }

/-- R173: events arriving in `idle`, `complete` or `error` change nothing. -/
def Obligations.EventsOutsideATransferIgnored : Prop :=
  ∀ (s : State) (capture : List Level), (s.tr.tstate = .idle ∨ s.tr.tstate = .complete ∨ s.tr.tstate = .error) →
    exec (.evUnit capture) s = .next s ∧ exec .evHwErr s = .next s

/-- R171 with `running = 0`: `T_CHECK` answers true exactly when the state is `complete`, then delivers the decoded bytes
and resets to `idle`, so that a second `T_CHECK` answers false; in every other state it has no effect. That `res` is 0 with
false is the model's choice, log entry 26; `rxValid` is the model's own (log entry 5) and left open here. -/
def Obligations.TCheckDeliversOnce : Prop :=
  ∀ s : State, s.running = false →
    (s.tr.tstate ≠ .complete →
      ∃ (rd : List Byte) (so : List Level),
        exec .tCheck s = .next { s with reply := { ok := false, res := 0, rdata := rd, sampleOut := so } }) ∧
    (s.tr.tstate = .complete →
      ∃ (bytes rd : List Byte) (S so so' : List Level) (valid : Bool) (t : State),
        bytes = decodeSamples cfg.oversample s.tr.samples s.tr.rxCount ∧
        t = { s with
          tr := { s.tr with
            rxBuf := bytes, rxDecoded := bytes.length, rxValid := valid, lineDir := .output, lineLevel := true, tstate := .idle
            samples := S }
          reply := { ok := true, res := BitVec.ofNat 32 bytes.length, rdata := bytes, sampleOut := so } } ∧
        exec .tCheck s = .next t ∧
        exec .tCheck t = .next { t with reply := { ok := false, res := 0, rdata := rd, sampleOut := so' } })

/-- R172 with `running = 0`: `T_ABORT` forces `idle` and the idle output line in every state, keeps `rxBuf` and
`rxDecoded`, and stops the engine: an event delivered after it is ignored and a tick changes nothing. -/
def Obligations.TAbortStopsTheTransfer : Prop :=
  ∀ (s : State) (capture : List Level), s.running = false →
    ∃ (S so : List Level) (n : Nat) (rd : List Byte) (t : State),
      t = { s with
        tr := { s.tr with tstate := .idle, lineDir := .output, lineLevel := true, samples := S, timer := n }
        reply := { ok := true, res := 0, rdata := rd, sampleOut := so } } ∧
      exec .tAbort s = .next t ∧ exec (.evUnit capture) t = .next t ∧ exec .evHwErr t = .next t ∧
      ∀ (lineIn : Level) (hwErr : Bool), t.tr.tick cfg lineIn hwErr = t.tr

/-- R179, which the spec marks as derived from R163 and R169: a transfer takes exactly `txCount - min(PRELOAD_BYTES,
txCount) + 5` events to reach `complete`; with `PRELOAD_BYTES = 1` that is 8 for a READ transfer and 16 for a WRITE
transfer. -/
def Obligations.EventsPerTransfer : Prop :=
  (∀ (c : Config) (line : Nat) (buf : List Byte) (readCount : Nat) (t0 t : Transport) (capture : List Level),
    t0.start c line buf readCount = some t →
    (t.afterUnits c capture (buf.length - min c.preloadBytes buf.length + 5)).tstate = .complete ∧
    ∀ k : Nat, k < buf.length - min c.preloadBytes buf.length + 5 → (t.afterUnits c capture k).tstate ≠ .complete) ∧
  ∀ c : Config, c.preloadBytes = 1 → transferEvents c 4 = 8 ∧ transferEvents c 12 = 16

/-- R174 and R176, with R175 and R180, which the spec marks as derived from R164, R165, R174 and R176: tick by tick, the
line carries the write waveform and then level 1 up to the switch to input, the capture stores one sample a tick, and the
transfer is complete after exactly `(IDLE_BITS + 10 * txCount) * os + HOLD + CAPTURE_LEN` ticks. The tick engine's own
fields are log entry 18. The line is seen from `T_START` on. -/
def Obligations.LineCarriesTheWriteWaveform : Prop :=
  ∀ (c : Config) (line : Nat) (buf : List Byte) (readCount : Nat) (t0 t : Transport) (lineIn : Nat → Level),
    t0.start c line buf readCount = some t →
    let switch := (c.idleBits + 10 * buf.length) * c.oversample + holdTicks c buf.length
    let W := List.replicate (c.idleBits * c.oversample) true ++ encodeBytes c.oversample buf
    (∀ k : Nat, k < switch → (t.afterTicks c lineIn (k + 1)).lineLevel = W.getD k true) ∧
    (∀ k : Nat, k < switch → (t.afterTicks c lineIn k).lineDir = .output) ∧
    (∀ k : Nat, switch ≤ k → k < switch + captureLen c → (t.afterTicks c lineIn k).tstate = .reading) ∧
    (t.afterTicks c lineIn (switch + captureLen c)).tstate = .complete ∧
    (t.afterTicks c lineIn (switch + captureLen c)).samples
      = (List.range (captureLen c)).map fun j => lineIn (switch + j)

/-- R128 (d): the direct Transport commands are refused while the engine runs. So are the direct codec commands, by D3 (log
entry 13). -/
def Obligations.DirectCommandsRefusedWhileRunning : Prop :=
  ∀ (s : State) (i : Instr), s.running = true →
    ((∃ line wc rc, i = .tStart line wc rc) ∨ i = .tCheck ∨ i = .tAbort ∨ (∃ b, i = .encode b) ∨ ∃ n, i = .decode n) →
    exec i s = .next { s with reply := { ok := false, res := 0, rdata := [], sampleOut := [] } }

/-! ### Refusals, INIT, SHUTDOWN -/

/-- R128 (b), (c): an engine command other than `INIT` is refused while `running = 0`, and a command on a driver that does
not exist is refused; nothing changes. -/
def Obligations.EngineCommandsRefused : Prop :=
  ∀ (s : State) (i : Instr),
    (s.running = false ∧ ((∃ now p, i = .spin now p) ∨ i = .shutdown ∨ (driverOperand i).isSome = true)) ∨
      (∃ d, driverOperand i = some d ∧ s.nDrivers ≤ d.toNat) →
    exec i s = .next { s with reply := { ok := false, res := 0, rdata := [], sampleOut := [] } }

/-- R262: what `INIT(N)` leaves, and that it is refused for `N` out of range (R128 (f)). It writes every field of the bus
and of each driver, starts no transfer and discards one in flight. -/
def Obligations.InitGivesEveryField : Prop :=
  ∀ (s : State) (n : Word),
    (1 ≤ n.toNat → n.toNat ≤ cfg.maxDrivers →
      ∃ (t : State) (S : List Level) (m : Nat), exec (.init n) s = .next t ∧ t.running = true ∧ t.nDrivers = n.toNat ∧
        t.currentDriver = none ∧ t.lastServiced = n.toNat - 1 ∧
        t.tr = { s.tr with tstate := .idle, lineDir := .output, lineLevel := true, samples := S, timer := m } ∧
        t.transferStartTime = s.transferStartTime ∧ t.ports = s.ports ∧ t.inQ = s.inQ ∧ t.reply.ok = true ∧ t.reply.res = 0 ∧
        ∀ i : Nat, i < n.toNat → ∃ d : Driver, t.drivers[i]? = some d ∧ d.state = .noPower ∧
          (∀ j : WSlot, d.w.get j = { regNum := cfg.wreg j, value := cfg.wdefault j, dirty := false
                                      crc := crc8 ([0x05, 0x00, 1#1 ++ cfg.wreg j] ++ bytesBe (cfg.wdefault j)) }) ∧
          d.r.length = cfg.nReadExt ∧
          (∀ k : Nat, k < cfg.nReadExt → d.r[k]? = some { regNum := cfg.rreg k, last := 0, accum := 0 }) ∧
          d.numReads = 0 ∧ d.numWrites = 0 ∧ d.readErrors = 0 ∧ d.writeErrors = 0 ∧ d.numTimeouts = 0 ∧
          d.lastIfCount = 0 ∧ d.nWrite = cfg.nWriteBase ∧ d.maxReadCount = 0 ∧ d.readCursor = 0 ∧
          d.readCycleDone = false ∧ d.widened = false ∧ d.pending = .none ∧
          d.microstepShift = cfg.defaultMicrostepShift ∧ d.interpolate = cfg.defaultInterpolate ∧
          d.standstillFraction = cfg.defaultStandstillFraction ∧ d.motorCurrent = 0) ∧
    (n.toNat = 0 ∨ cfg.maxDrivers < n.toNat →
      ∃ (rd : List Byte) (so : List Level),
        exec (.init n) s = .next { s with reply := { ok := false, res := 0, rdata := rd, sampleOut := so } })

/-- R264: `SHUTDOWN` aborts the Transport, clears the current driver, takes every driver to `noPower` and ends `running`;
slots, counters and `lastServiced` stay. -/
def Obligations.ShutdownStopsTheEngine : Prop :=
  ∀ s : State, s.running = true →
    ∃ (S : List Level) (n : Nat), exec .shutdown s
      = .next { s with
          tr := { s.tr with tstate := .idle, lineDir := .output, lineLevel := true, samples := S, timer := n }
          currentDriver := none, running := false
          drivers := s.drivers.map fun d => { d with pending := .none, maxReadCount := 0, state := .noPower }
          reply := { ok := true, res := 0, rdata := [], sampleOut := [] } }

/-! ### The engine -/

/-- R202, R203: with a dirty active slot `E_START` takes the lowest-indexed one, clears its flag, notes it as pending and
starts the 12-byte WRITE transfer with the slot's fields on the driver's line (R163). -/
def Obligations.EStartSendsTheLowestDirtySlot : Prop :=
  ∀ (s : State) (d : Nat) (drv : Driver) (i : WSlot), s.running = true → s.drivers[d]? = some drv → s.tr.tstate = .idle →
    i.index < drv.nWrite → (drv.w.get i).dirty = true → (∀ j : WSlot, j.index < i.index → (drv.w.get j).dirty = false) →
    ∃ (tr : Transport) (drv' : Driver),
      exec (.eStart d) s = .next { s with drivers := s.drivers.set d drv', tr := tr } ∧
      drv' = { drv with pending := .write i, w := drv.w.set i { drv.w.get i with dirty := false } } ∧
      tr.txBuf = [0x05, 0x00, 1#1 ++ (drv.w.get i).regNum, (drv.w.get i).value.extractLsb' 24 8,
        (drv.w.get i).value.extractLsb' 16 8, (drv.w.get i).value.extractLsb' 8 8, (drv.w.get i).value.extractLsb' 0 8,
        (drv.w.get i).crc, 0x05, 0x00, 0x02, 0xCE] ++ s.tr.txBuf.drop 12 ∧
      tr.txCount = 12 ∧ tr.rxCount = 8 ∧ tr.lineSel = d ∧ tr.txQueued = min cfg.preloadBytes 12 ∧
      tr.lineDir = .output ∧ tr.lineLevel = true ∧ tr.sampleCount = 0 ∧ tr.tstate = .writing ∧ tr.rxBuf = s.tr.rxBuf ∧
      tr.rxDecoded = s.tr.rxDecoded

/-- R204: with no dirty active slot `E_START` starts the READ of the slot at the cursor, with the CRC of its three bytes
(R163); the cursor does not move. -/
def Obligations.EStartReadsAtTheCursor : Prop :=
  ∀ (s : State) (d : Nat) (drv : Driver) (x : ReadSlot), s.running = true → s.drivers[d]? = some drv → s.tr.tstate = .idle →
    (∀ j : WSlot, j.index < drv.nWrite → (drv.w.get j).dirty = false) → drv.r[drv.readCursor]? = some x →
    ∃ tr : Transport,
      exec (.eStart d) s = .next { s with drivers := s.drivers.set d { drv with pending := .read drv.readCursor }, tr := tr } ∧
      tr.txBuf = [0x05, 0x00, 0#1 ++ x.regNum, crc8 [0x05, 0x00, 0#1 ++ x.regNum]] ++ s.tr.txBuf.drop 4 ∧
      tr.txCount = 4 ∧ tr.rxCount = 8 ∧ tr.lineSel = d ∧ tr.txQueued = min cfg.preloadBytes 4 ∧
      tr.lineDir = .output ∧ tr.lineLevel = true ∧ tr.sampleCount = 0 ∧ tr.tstate = .writing ∧ tr.rxBuf = s.tr.rxBuf ∧
      tr.rxDecoded = s.tr.rxDecoded

/-- R207: a WRITE is accepted exactly when eight bytes were decoded, the register byte is `0x02`, the counter byte is the
stored one plus 1 modulo 16, and the CRC is that of the seven bytes before it. -/
def Obligations.WriteAcceptance : Prop :=
  ∀ (last : Byte) (rx : List Byte),
    judgeWrite last rx = none ↔
      rx.length = 8 ∧ rx[2]? = some 0x02 ∧
      (∃ n : Byte, rx[6]? = some n ∧ n.toNat % 16 = (last.toNat + 1) % 16) ∧
      rx[7]? = some (crc8 (rx.take 7))

/-- R211, R212: a READ is accepted exactly when eight bytes were decoded and the first three are the sync byte, the master
address and the requested register; the CRC byte is not tested. -/
def Obligations.ReadAcceptance : Prop :=
  ∀ (reg : RegNum) (rx : List Byte),
    (judgeRead reg rx = none ↔
      rx.length = 8 ∧ rx[0]? = some 0x05 ∧ rx[1]? = some 0xFF ∧ rx[2]? = some (0#1 ++ reg)) ∧
    ∀ crc : Byte, judgeRead reg (rx.set 7 crc) = judgeRead reg rx

/-- R208, R209, R216: `E_DONE` on a pending WRITE of an active slot, its bytes delivered (R361). Accepted: the counter
byte is stored, `numWrites` counts, the slot is as it was. Rejected: the slot is dirty again, `writeErrors` counts,
`lastIfCount` stays. Then `pending` is cleared and the bring-up test runs. -/
def Obligations.EDoneOnAWrite : Prop :=
  ∀ (s : State) (d : Nat) (drv : Driver) (i : WSlot), s.running = true → s.tr.rxValid = true → s.drivers[d]? = some drv →
    drv.pending = .write i → i.index < drv.nWrite →
    (judgeWrite drv.lastIfCount s.tr.rx = none → ∃ n : Byte, s.tr.rx[6]? = some n ∧
      exec (.eDone d) s = .next { s with drivers := s.drivers.set d (Driver.bringUp cfg { drv with
        lastIfCount := n, numWrites := drv.numWrites + 1, pending := .none }) }) ∧
    (judgeWrite drv.lastIfCount s.tr.rx ≠ none →
      exec (.eDone d) s = .next { s with drivers := s.drivers.set d { drv with
          w := drv.w.set i { drv.w.get i with dirty := true }
          writeErrors := drv.writeErrors + 1, pending := .none } })

/-- R213, R214, R216: `E_DONE` on an accepted READ of slot `k`: the payload, with the open-load bits suppressed where R214
says, is stored and ORed into the latch, `numReads` counts and the cursor moves. -/
def Obligations.EDoneOnAnAcceptedRead : Prop :=
  ∀ (s : State) (d k interval : Nat) (drv : Driver) (x : ReadSlot) (reg b3 b2 b1 b0 crc : Byte),
    s.running = true → s.tr.rxValid = true →
    s.drivers[d]? = some drv → drv.pending = .read k → drv.r[k]? = some x → reg = 0#1 ++ x.regNum →
    s.tr.rx = [0x05, 0xFF, reg, b3, b2, b1, b0, crc] → s.ports.fullStepInterval[d]? = some interval →
    ∃ v : Word,
      ((k = cfg.statusSlot ∧ ((b3 ++ b2 ++ b1 ++ b0) &&& cfg.standstillMask ≠ 0 ∨ cfg.maxOpenLoadStepInterval < interval ∨
          drv.motorCurrent < cfg.minOpenLoadCurrentMA) ∧ v = (b3 ++ b2 ++ b1 ++ b0) &&& ~~~cfg.openLoadMask) ∨
        (¬(k = cfg.statusSlot ∧ ((b3 ++ b2 ++ b1 ++ b0) &&& cfg.standstillMask ≠ 0 ∨ cfg.maxOpenLoadStepInterval < interval ∨
          drv.motorCurrent < cfg.minOpenLoadCurrentMA)) ∧ v = b3 ++ b2 ++ b1 ++ b0)) ∧
      exec (.eDone d) s = .next { s with drivers := s.drivers.set d (Driver.bringUp cfg { drv with
          r := drv.r.set k { x with last := v, accum := x.accum ||| v }
          numReads := drv.numReads + 1, readCursor := (k + 1) % drv.maxReadCount, pending := .none
          readCycleDone := if (k + 1) % drv.maxReadCount = 0 then true else drv.readCycleDone }) }

/-- R215, R216: `E_DONE` on a rejected READ counts `readErrors`, keeps the cursor and the slot, clears `pending` and runs the
bring-up test. -/
def Obligations.EDoneOnARejectedRead : Prop :=
  ∀ (s : State) (d k : Nat) (drv : Driver) (x : ReadSlot), s.running = true → s.tr.rxValid = true →
    s.drivers[d]? = some drv → drv.pending = .read k →
    drv.r[k]? = some x → judgeRead x.regNum s.tr.rx ≠ none →
    exec (.eDone d) s = .next { s with drivers := s.drivers.set d (Driver.bringUp cfg { drv with
      readErrors := drv.readErrors + 1, pending := .none }) }

/-- R244, R246, R247: the bring-up test. It does nothing unless the driver is initialising, every active slot is clean and a
read cycle is done; then an extended device that is not widened is widened, every other becomes ready. -/
def Obligations.BringUpTest : Prop :=
  ∀ (c : Config) (d : Driver) (x : ReadSlot), d.r[c.identSlot]? = some x →
    (¬(d.state = .initialising ∧ (∀ i : WSlot, i.index < d.nWrite → (d.w.get i).dirty = false) ∧ d.readCycleDone = true) →
      d.bringUp c = d) ∧
    (d.state = .initialising → (∀ i : WSlot, i.index < d.nWrite → (d.w.get i).dirty = false) → d.readCycleDone = true →
      (¬(c.isExtended x.last = true ∧ d.widened = false) → d.bringUp c = { d with state := .ready }) ∧
      (c.isExtended x.last = true → d.widened = false →
        ∃ w : WriteFile,
          d.bringUp c = { d with
            widened := true, nWrite := c.nWriteExt, w := w, maxReadCount := c.nReadExt, readCursor := 0
            readCycleDone := false } ∧
          ∀ i : WSlot, w.get i = { d.w.get i with
            dirty := if c.nWriteBase ≤ i.index ∧ i.index < c.nWriteExt then true else (d.w.get i).dirty }))

/-- R221, R222: `E_TIMEOUT` counts, aborts the Transport, marks a pending write dirty again and clears `pending`; a count
above 10 takes the driver to `notInitialised` and out of the scheduler's set. -/
def Obligations.ETimeoutCountsAndAborts : Prop :=
  ∀ (s : State) (d : Nat) (drv : Driver), s.running = true → s.drivers[d]? = some drv →
    ∃ (S : List Level) (n : Nat) (drv' : Driver),
      exec (.eTimeout d) s = .next { s with
        drivers := s.drivers.set d drv'
        tr := { s.tr with tstate := .idle, lineDir := .output, lineLevel := true, samples := S, timer := n } } ∧
      drv' = { drv with
        numTimeouts := drv.numTimeouts + 1, pending := .none
        w := match drv.pending with
          | .write i => drv.w.set i { drv.w.get i with dirty := true }
          | _ => drv.w
        state := if 10 < (drv.numTimeouts + 1).toNat then .notInitialised else drv.state
        maxReadCount := if 10 < (drv.numTimeouts + 1).toNat then 0 else drv.maxReadCount }

/-- Where the internal operations stop when issued on their own (R22, R57, R58, R352, R361; the model's choice, log entries 5
and 11): all four while `running = 0`, since what they read is unspecified there; the three that act on a driver at or beyond
`nDrivers`; and `E_DONE` on a pending transfer whose bytes no `T_CHECK` has delivered. With nothing pending `E_DONE` reads no
byte and runs the bring-up test. -/
def Obligations.WhereInternalOperationsStop : Prop :=
  ∀ (s : State) (d : Nat),
    (s.running = false →
      exec (.eStart d) s = .fault .unspecifiedRead ∧ exec (.eDone d) s = .fault .unspecifiedRead ∧
      exec (.eTimeout d) s = .fault .unspecifiedRead ∧ exec .getNext s = .fault .unspecifiedRead) ∧
    (s.running = true → s.nDrivers ≤ d →
      exec (.eStart d) s = .fault (.noSuchDriver d) ∧ exec (.eDone d) s = .fault (.noSuchDriver d) ∧
      exec (.eTimeout d) s = .fault (.noSuchDriver d)) ∧
    ∀ drv : Driver, s.running = true → s.drivers[d]? = some drv →
      (drv.pending ≠ .none → s.tr.rxValid = false → exec (.eDone d) s = .fault .unspecifiedRead) ∧
      (drv.pending = .none → exec (.eDone d) s = .next { s with drivers := s.drivers.set d (drv.bringUp cfg) })

/-- R252: `GETNEXT` gives the first driver with `maxReadCount != 0` after the one last serviced, wrapping around, and `none`
when there is no such driver; it writes nothing but the answer (the answer port is log entry 11). -/
def Obligations.GetNextIsRoundRobin : Prop :=
  ∀ s : State,
    (∀ i : Nat, s.nextDriver = some i ↔
      ∃ k : Nat, 1 ≤ k ∧ k ≤ s.nDrivers ∧ i = (s.lastServiced + k) % s.nDrivers ∧
        (∃ d, s.drivers[i]? = some d ∧ d.maxReadCount ≠ 0) ∧
        ∀ j : Nat, 1 ≤ j → j < k → ∀ d, s.drivers[(s.lastServiced + j) % s.nDrivers]? = some d → d.maxReadCount = 0) ∧
    (s.nextDriver = none ↔ ∀ (i : Nat) (d : Driver), s.drivers[i]? = some d → d.maxReadCount = 0) ∧
    (s.running = true → exec .getNext s = .next { s with reply :=
      { ok := s.nextDriver.isSome, res := BitVec.ofNat 32 (s.nextDriver.getD 0), rdata := [], sampleOut := [] } })

/-- R254, which the spec marks as derived from R252: a driver is served twice in a row only when no other driver is
eligible. -/
def Obligations.ServedTwiceOnlyWhenAlone : Prop :=
  ∀ (s : State) (d : Nat), s.lastServiced = d → s.nextDriver = some d →
    ∀ (j : Nat) (x : Driver), j ≠ d → s.drivers[j]? = some x → x.maxReadCount = 0

/-! ### SPIN -/

/-- R250: `SPIN` with `powered = 0` aborts a transfer in flight (R172) and takes every driver to `noPower`; nothing else
changes. -/
def Obligations.SpinWithoutPower : Prop :=
  ∀ (s : State) (now : Word), s.running = true →
    ∃ (S : List Level) (n : Nat) (rd : List Byte) (so : List Level),
      exec (.spin now false) s = .next { s with
        tr := if s.currentDriver = none then s.tr else
          { s.tr with tstate := .idle, lineDir := .output, lineLevel := true, samples := S, timer := n }
        currentDriver := none
        drivers := s.drivers.map fun d => { d with state := .noPower, maxReadCount := 0, pending := .none }
        reply := { ok := true, res := 0, rdata := rd, sampleOut := so } }

/-- R242, R258, R261: the first powered `SPIN` with every driver in `noPower` powers all of them up and starts the write of
slot 0 for the driver after the one last serviced. -/
def Obligations.SpinPowersUp : Prop :=
  ∀ (s : State) (now : Word), s.running = true → s.currentDriver = none → s.tr.tstate = .idle → 1 ≤ s.nDrivers →
    (∀ (i : Nat) (d : Driver), s.drivers[i]? = some d → d.state = .noPower) →
    ∃ t : State, exec (.spin now true) s = .next t ∧
      t.currentDriver = some ((s.lastServiced + 1) % s.nDrivers) ∧ t.transferStartTime = now ∧
      t.lastServiced = s.lastServiced ∧ t.running = true ∧ t.nDrivers = s.nDrivers ∧ t.ports = s.ports ∧ t.inQ = s.inQ ∧
      t.reply.ok = true ∧ t.reply.res = 0 ∧ t.tr.tstate = .writing ∧
      t.tr.lineSel = (s.lastServiced + 1) % s.nDrivers ∧ t.tr.txCount = 12 ∧ t.tr.rxCount = 8 ∧
      t.tr.txQueued = min cfg.preloadBytes 12 ∧ t.tr.lineDir = .output ∧ t.tr.lineLevel = true ∧ t.tr.sampleCount = 0 ∧
      t.tr.rxBuf = s.tr.rxBuf ∧ t.tr.rxDecoded = s.tr.rxDecoded ∧
      (∀ d : Driver, s.drivers[(s.lastServiced + 1) % s.nDrivers]? = some d → t.tr.txBuf =
        [0x05, 0x00, 1#1 ++ d.w.globalConf.regNum, d.w.globalConf.value.extractLsb' 24 8,
          d.w.globalConf.value.extractLsb' 16 8, d.w.globalConf.value.extractLsb' 8 8,
          d.w.globalConf.value.extractLsb' 0 8, d.w.globalConf.crc, 0x05, 0x00, 0x02, 0xCE] ++ s.tr.txBuf.drop 12) ∧
      ∀ (i : Nat) (d : Driver), s.drivers[i]? = some d →
        ∃ (w : WriteFile) (p : Pending),
          t.drivers[i]? = some { d with
            w := w, pending := p, nWrite := cfg.nWriteBase, widened := false, maxReadCount := cfg.nReadBase, readCursor := 0
            readCycleDone := false, numTimeouts := 0, lastIfCount := 0, state := .initialising } ∧
          (p = if i = (s.lastServiced + 1) % s.nDrivers then .write .globalConf else .none) ∧
          ∀ j : WSlot, w.get j = { d.w.get j with
            dirty := decide (j.index < cfg.nWriteBase) && !(decide (i = (s.lastServiced + 1) % s.nDrivers) && j == .globalConf) }

/-- R253, R258, R259: a `SPIN` that finds the current driver's transfer complete, however late, decodes it (R171), has the
effect of `E_DONE` on that driver and makes it the one last serviced. In the state `u` this leaves, it then starts a
transfer, as `E_START` does, for the driver `GETNEXT` gives there, or leaves it at that when `GETNEXT` gives none; `u`
names every field that changed. -/
def Obligations.SpinRetiresACompletedTransfer : Prop :=
  ∀ (s : State) (now : Word) (c : Nat) (d : Driver), s.running = true → s.currentDriver = some c →
    s.drivers[c]? = some d → s.tr.tstate = .complete →
    (∀ (i : Nat) (x : Driver), s.drivers[i]? = some x → x.state ≠ .noPower) →
    ∃ (bytes : List Byte) (S : List Level) (v u : State) (d' : Driver),
      bytes = decodeSamples cfg.oversample s.tr.samples s.tr.rxCount ∧
      v = { s with tr := { s.tr with
        rxBuf := bytes, rxDecoded := bytes.length, rxValid := true, lineDir := .output, lineLevel := true, tstate := .idle
        samples := S } } ∧
      exec (.eDone c) v = .next { v with drivers := s.drivers.set c d' } ∧
      u = { v with drivers := s.drivers.set c d', lastServiced := c, currentDriver := none } ∧
      (u.nextDriver = none →
        exec (.spin now true) s = .next { u with reply := { ok := true, res := 0, rdata := [], sampleOut := [] } }) ∧
      ∀ e : Nat, u.nextDriver = some e →
        ∃ (tr : Transport) (x : Driver),
          exec (.eStart e) u = .next { u with drivers := u.drivers.set e x, tr := tr } ∧
          exec (.spin now true) s = .next { u with
            drivers := u.drivers.set e x, tr := tr, currentDriver := some e, transferStartTime := now
            reply := { ok := true, res := 0, rdata := [], sampleOut := [] } } ∧
          tr.tstate = .writing ∧ tr.lineSel = e ∧ x.pending ≠ .none ∧ x.maxReadCount ≠ 0

/-- R221, R222, R256, R257, R258: a `SPIN` that finds the transfer not complete and more than `TRANSFER_TIMEOUT` ticks old,
modulo `2^32`, has the effect of `E_TIMEOUT` on the current driver and makes it the one last serviced. In the state `u` this
leaves, it starts a transfer, as `E_START` does, for the driver `GETNEXT` gives there, if any; `u` names every field that
changed. A pending write is then dirty again, or pending again. Stated for every assignment `c` of the parameters; `SPIN` and
`E_START` are the same functions at `cfg`. -/
def Obligations.SpinTimesOut : Prop :=
  ∀ (s : State) (now : Word),
    (∀ powered : Bool, exec (.spin now powered) s = .next (s.spinCmd cfg now powered)) ∧
    ∀ (c : Config) (i : Nat) (d : Driver), s.running = true → s.currentDriver = some i →
      s.drivers[i]? = some d → s.tr.tstate ≠ .complete → c.transferTimeout < (now - s.transferStartTime).toNat →
      (∀ (j : Nat) (x : Driver), s.drivers[j]? = some x → x.state ≠ .noPower) →
      ∃ (S : List Level) (n : Nat) (d' : Driver) (u : State),
        d' = { d with
          numTimeouts := d.numTimeouts + 1, pending := .none
          w := match d.pending with
            | .write j => d.w.set j { d.w.get j with dirty := true }
            | _ => d.w
          state := if 10 < (d.numTimeouts + 1).toNat then .notInitialised else d.state
          maxReadCount := if 10 < (d.numTimeouts + 1).toNat then 0 else d.maxReadCount } ∧
        u = { s with
          drivers := s.drivers.set i d', lastServiced := i, currentDriver := none
          tr := { s.tr with tstate := .idle, lineDir := .output, lineLevel := true, samples := S, timer := n } } ∧
        (u.nextDriver = none →
          s.spinCmd c now true = { u with reply := { ok := true, res := 0, rdata := [], sampleOut := [] } }) ∧
        (∀ e : Nat, u.nextDriver = some e →
          exec (.eStart e) u = .next (u.startTransfer cfg e) ∧
          s.spinCmd c now true = { u.startTransfer c e with
            currentDriver := some e, transferStartTime := now
            reply := { ok := true, res := 0, rdata := [], sampleOut := [] } } ∧
          (u.startTransfer c e).tr.tstate = .writing ∧ (u.startTransfer c e).tr.lineSel = e) ∧
        ∀ j : WSlot, d.pending = .write j →
          ∃ x : Driver, (s.spinCmd c now true).drivers[i]? = some x ∧ ((x.w.get j).dirty = true ∨ x.pending = .write j)

/-- R257, R258: a `SPIN` that finds the transfer not complete and not overdue changes nothing but the answer. -/
def Obligations.SpinWaits : Prop :=
  ∀ (s : State) (now : Word) (c : Nat), s.running = true → s.currentDriver = some c → s.tr.tstate ≠ .complete →
    (now - s.transferStartTime).toNat ≤ cfg.transferTimeout →
    (∀ (i : Nat) (x : Driver), s.drivers[i]? = some x → x.state ≠ .noPower) →
    exec (.spin now true) s = .next { s with reply := { ok := true, res := 0, rdata := [], sampleOut := [] } }

/-- R258, R265: a `SPIN` with no transfer in flight starts one for the driver `GETNEXT` gives, without touching
`lastServiced` or another driver, and does nothing when it gives none. -/
def Obligations.SpinStartsTheNextTransfer : Prop :=
  ∀ (s : State) (now : Word), s.running = true → s.currentDriver = none → s.tr.tstate = .idle →
    (∀ (i : Nat) (x : Driver), s.drivers[i]? = some x → x.state ≠ .noPower) →
    (s.nextDriver = none →
      exec (.spin now true) s = .next { s with reply := { ok := true, res := 0, rdata := [], sampleOut := [] } }) ∧
    ∀ d : Nat, s.nextDriver = some d →
      ∃ (tr : Transport) (drv drv' : Driver), s.drivers[d]? = some drv ∧
        exec (.spin now true) s = .next { s with
          drivers := s.drivers.set d drv', tr := tr, currentDriver := some d, transferStartTime := now
          reply := { ok := true, res := 0, rdata := [], sampleOut := [] } } ∧
        exec (.eStart d) s = .next { s with drivers := s.drivers.set d drv', tr := tr } ∧ tr.tstate = .writing

/-! ### Configuration and status commands -/

/-- R282 to R286: `SETCUR`. The clamped current is stored and answered; the two 5-bit codes replace their fields of the
current slot and every other bit stays; the chopper slot changes, in its vsense bit only, exactly when that bit is not the
one the range asks for. -/
def Obligations.SetCurrentWritesTheCodes : Prop :=
  ∀ (s : State) (drv : Byte) (mA : Word) (d : Driver), s.running = true → s.drivers[drv.toNat]? = some d →
    ∃ (i hold : Nat) (r : SenseRange) (v : Word) (d' : Driver) (rd : List Byte) (so : List Level),
      i = (if mA.toNat < 50 then 50 else if cfg.deviceMaxMA < mA.toNat then cfg.deviceMaxMA else mA.toNat) ∧
      r = (if i ≤ cfg.iMaxVs1 then .vs1 else .vs0) ∧
      hold = min (i * d.standstillFraction.val / 256) cfg.maxStandstillMA ∧
      exec (.setcur drv mA) s = .next { s with
        drivers := s.drivers.set drv.toNat d'
        reply := { ok := true, res := BitVec.ofNat 32 i, rdata := rd, sampleOut := so } } ∧
      d' = { d with motorCurrent := i, w := d'.w } ∧
      d'.w.get .currentConf = { d.w.get .currentConf with value := v, dirty := true
                                                          crc := slotCrc (d.w.get .currentConf).regNum v } ∧
      (∀ b : Nat, b < 32 → v.getLsbD b =
        if cfg.irunShift ≤ b ∧ b < cfg.irunShift + 5 then
          (clamp (cfg.csScale r i) 0 31).toNat.testBit (b - cfg.irunShift)
        else if cfg.iholdShift ≤ b ∧ b < cfg.iholdShift + 5 then
          (clamp (cfg.csScale r hold) 0 31).toNat.testBit (b - cfg.iholdShift)
        else (d.w.get .currentConf).value.getLsbD b) ∧
      ((d.w.get .chopperConf).value.getLsbD cfg.vsenseBit = (r == .vs1) →
        d'.w.get .chopperConf = d.w.get .chopperConf) ∧
      ((d.w.get .chopperConf).value.getLsbD cfg.vsenseBit ≠ (r == .vs1) →
        ∃ h : Word, d'.w.get .chopperConf = { d.w.get .chopperConf with
            value := h, dirty := true, crc := slotCrc (d.w.get .chopperConf).regNum h } ∧
          ∀ b : Nat, b < 32 → h.getLsbD b =
            if b = cfg.vsenseBit then r == .vs1 else (d.w.get .chopperConf).value.getLsbD b) ∧
      ∀ j : WSlot, j ≠ .currentConf → j ≠ .chopperConf → d'.w.get j = d.w.get j

/-- R301: at `I_MAX_VS1` the vsense bit is set, one milliamp above it is clear, and both codes lie in 0..31 whatever
`CS_SCALE` returns. -/
def Obligations.CurrentBoundary : Prop :=
  ∀ (c : Config) (d : Driver),
    (d.setCurrent c c.iMaxVs1).1.w.chopperConf.value.getLsbD c.vsenseBit = true ∧
    (c.iMaxVs1 < c.deviceMaxMA →
      (d.setCurrent c (c.iMaxVs1 + 1)).1.w.chopperConf.value.getLsbD c.vsenseBit = false) ∧
    ∀ (r : SenseRange) (mA : Nat), (currentCode c r mA).toNat ≤ 31

/-- R287, R288: `SETMS` with a power of two up to 256 stores the shift and the request, writes `8 - shift` into the
resolution field and the request into the interpolation bit, and keeps every other bit; every other operand is refused. -/
def Obligations.SetMicrostepsWritesTheField : Prop :=
  ∀ (s : State) (drv : Byte) (m : Word) (interp : Bool) (d : Driver), s.running = true →
    s.drivers[drv.toNat]? = some d →
    (∀ shift : Fin 9, m.toNat = 2 ^ shift.val →
      ∃ (h : Word) (rd : List Byte) (so : List Level),
        exec (.setms drv m interp) s = .next { s with
          drivers := s.drivers.set drv.toNat { d with
            microstepShift := shift, interpolate := interp
            w := d.w.set .chopperConf { d.w.get .chopperConf with
              value := h, dirty := true, crc := slotCrc (d.w.get .chopperConf).regNum h } }
          reply := { ok := true, res := 0, rdata := rd, sampleOut := so } } ∧
        ∀ b : Nat, b < 32 → h.getLsbD b =
          if cfg.mresShift ≤ b ∧ b < cfg.mresShift + 4 then (8 - shift.val).testBit (b - cfg.mresShift)
          else if b = cfg.intpolBit then interp else (d.w.get .chopperConf).value.getLsbD b) ∧
    ((∀ shift : Fin 9, m.toNat ≠ 2 ^ shift.val) →
      ∃ (rd : List Byte) (so : List Level),
        exec (.setms drv m interp) s = .next { s with reply := { ok := false, res := 0, rdata := rd, sampleOut := so } })

/-- R290, R292: `SETSGT` clamps its signed operand and writes the mapped threshold, `SETSGMIN` saturates to 20 bits; each
writes its whole slot, marks it dirty with its CRC, and answers the value written. -/
def Obligations.StallCommandsWriteTheirSlots : Prop :=
  ∀ (s : State) (drv : Byte) (x : Word) (d : Driver), s.running = true → s.drivers[drv.toNat]? = some d →
    (∃ (v : Word) (rd : List Byte) (so : List Level),
      v.toNat = (cfg.stallMap (if x.toInt < -128 then -128 else if 127 < x.toInt then 127 else x.toInt)).toNat ∧
      exec (.setsgt drv x) s = .next { s with
        drivers := s.drivers.set drv.toNat { d with w := d.w.set .stallThreshold { d.w.get .stallThreshold with
          value := v, dirty := true, crc := slotCrc (d.w.get .stallThreshold).regNum v } }
        reply := { ok := true, res := v, rdata := rd, sampleOut := so } }) ∧
    ∃ (v : Word) (rd : List Byte) (so : List Level), v.toNat = min (cfg.tstepOf x.toNat) 0xFFFFF ∧
      exec (.setsgmin drv x) s = .next { s with
        drivers := s.drivers.set drv.toNat { d with w := d.w.set .coolThreshold { d.w.get .coolThreshold with
          value := v, dirty := true, crc := slotCrc (d.w.get .coolThreshold).regNum v } }
        reply := { ok := true, res := v, rdata := rd, sampleOut := so } }

/-- R289, R295, R296: `GETMS` answers `2^microstepShift` in bits 8..0 and `interpolate` in bit 16, `GETLIVE` the last status
value, and both change nothing but the answer; `GETACC` answers the latch and keeps the bits of the mask. -/
def Obligations.StatusCommandsAnswer : Prop :=
  ∀ (s : State) (drv : Byte) (keep : Word) (d : Driver) (x : ReadSlot), s.running = true →
    s.drivers[drv.toNat]? = some d → d.r[cfg.statusSlot]? = some x →
    (∃ (res : Word) (rd : List Byte) (so : List Level),
      exec (.getms drv) s = .next { s with reply := { ok := true, res := res, rdata := rd, sampleOut := so } } ∧
      (res.extractLsb' 0 9).toNat = 2 ^ d.microstepShift.val ∧ res.getLsbD 16 = d.interpolate ∧
      ∀ b : Nat, 9 ≤ b → b ≠ 16 → res.getLsbD b = false) ∧
    (∃ (rd : List Byte) (so : List Level),
      exec (.getlive drv) s = .next { s with reply := { ok := true, res := x.last, rdata := rd, sampleOut := so } }) ∧
    ∃ (rd : List Byte) (so : List Level), exec (.getacc drv keep) s = .next { s with
      drivers := s.drivers.set drv.toNat { d with r := d.r.set cfg.statusSlot { x with accum := x.accum &&& keep } }
      reply := { ok := true, res := x.accum, rdata := rd, sampleOut := so } }

/-- R280, R298: `SETREG` with a name in `0x00..0x08` writes all 32 bits of that slot, its CRC and its dirty flag in one step;
every other name is refused. -/
def Obligations.SetRegWritesTheNamedSlot : Prop :=
  ∀ (s : State) (drv : Byte) (name v : Word) (d : Driver), s.running = true → s.drivers[drv.toNat]? = some d →
    (∀ i : WSlot, name.toNat = i.index → ∃ (rd : List Byte) (so : List Level),
      exec (.setreg drv name v) s = .next { s with
        drivers := s.drivers.set drv.toNat { d with w := d.w.set i { d.w.get i with
          value := v, dirty := true
          crc := crc8 ([0x05, 0x00, 1#1 ++ (d.w.get i).regNum] ++ [v.extractLsb' 24 8, v.extractLsb' 16 8,
            v.extractLsb' 8 8, v.extractLsb' 0 8]) } }
        reply := { ok := true, res := 0, rdata := rd, sampleOut := so } }) ∧
    (8 < name.toNat → ∃ (rd : List Byte) (so : List Level),
      exec (.setreg drv name v) s = .next { s with reply := { ok := false, res := 0, rdata := rd, sampleOut := so } })

/-- R299: what `GETREG` answers for each name code, and its refusal of every other; it changes nothing but the answer. What
a code names is stated for every assignment `c` of the parameters. The reading of a code that names both a read slot and a
diagnostic field is log entry 20. That `0x10 + k` gives `last` also for a slot at or beyond `maxReadCount` is the model's
choice, log entry 27. -/
def Obligations.GetRegAnswersTheNamedValue : Prop :=
  (∀ (s : State) (drv : Byte) (name : Word) (d : Driver), s.running = true → s.drivers[drv.toNat]? = some d →
    exec (.getreg drv name) s = .next { s with
      reply := { ok := (d.getRaw cfg name).isSome, res := (d.getRaw cfg name).getD 0, rdata := [], sampleOut := [] } }) ∧
  ∀ (c : Config) (name : Word) (d : Driver), d.r.length = c.nReadExt →
    (∀ i : WSlot, name.toNat = i.index → d.getRaw c name = some (d.w.get i).value) ∧
    (∀ (k : Nat) (x : ReadSlot), name.toNat = 0x10 + k → d.r[k]? = some x → d.getRaw c name = some x.last) ∧
    (9 ≤ name.toNat → name.toNat < 0x10 → d.getRaw c name = none) ∧
    (0x10 + c.nReadExt ≤ name.toNat →
      (name.toNat = 0x20 → d.getRaw c name = some d.numReads) ∧ (name.toNat = 0x21 → d.getRaw c name = some d.numWrites) ∧
      (name.toNat = 0x22 → d.getRaw c name = some d.readErrors) ∧
      (name.toNat = 0x23 → d.getRaw c name = some d.writeErrors) ∧
      (name.toNat = 0x24 → d.getRaw c name = some d.numTimeouts) ∧
      (name.toNat = 0x25 → d.getRaw c name = some (d.lastIfCount.setWidth 32)) ∧
      (name.toNat = 0x26 → d.getRaw c name = some (match d.state with
        | .noPower => 0
        | .initialising => 1
        | .ready => 2
        | .notInitialised => 3)) ∧
      (name.toNat < 0x20 ∨ 0x26 < name.toNat → d.getRaw c name = none))

/-! ### Datagrams -/

/-- R107, R108, R110, R112, R163, R72, R117: a request issued with `running = 0` and a Transport that may start: its bytes
on a line of the platform, 8 bytes to read; a `WRITE_REQ` is followed by the `IFCNT_REQ`. A write of a register outside
`WREG` (the interface counter among them) and a read of one outside `RREG` and the interface counter are refused. That a
request alone is issued so, and on which line, is log entry 9. The refusal of a read is stated for every assignment `c`.
-/
def Obligations.RequestsAreIssued : Prop :=
  ∀ (s : State) (r : RegNum) (v : Word) (crc : Byte), s.running = false →
    (s.tr.tstate = .idle ∨ s.tr.tstate = .complete ∨ s.tr.tstate = .error) →
    ((∃ i : WSlot, cfg.wreg i = r) → ∃ t : Transport, exec (.writeReq r v crc) s
        = .next { s with tr := t, reply := { ok := true, res := 0, rdata := [], sampleOut := [] } } ∧
      t.txBuf = [0x05, 0x00, 1#1 ++ r, v.extractLsb' 24 8, v.extractLsb' 16 8, v.extractLsb' 8 8,
        v.extractLsb' 0 8, crc, 0x05, 0x00, 0x02, 0xCE] ++ s.tr.txBuf.drop 12 ∧
      t.txCount = 12 ∧ t.rxCount = 8 ∧ t.lineSel < cfg.platformLines ∧ t.txQueued = min cfg.preloadBytes 12 ∧
      t.lineDir = .output ∧ t.lineLevel = true ∧ t.sampleCount = 0 ∧ t.tstate = .writing ∧ t.rxBuf = s.tr.rxBuf ∧
      t.rxDecoded = s.tr.rxDecoded) ∧
    ((∀ i : WSlot, cfg.wreg i ≠ r) →
      exec (.writeReq r v crc) s = .next { s with reply := { ok := false, res := 0, rdata := [], sampleOut := [] } }) ∧
    (∀ i : WSlot, cfg.wreg i ≠ 0x02) ∧
    (r = 0x02 ∨ (∃ k : Nat, k < cfg.nReadExt ∧ cfg.rreg k = r) → ∃ t : Transport, exec (.readReq r crc) s
        = .next { s with tr := t, reply := { ok := true, res := 0, rdata := [], sampleOut := [] } } ∧
      t.txBuf = [0x05, 0x00, 0#1 ++ r, crc] ++ s.tr.txBuf.drop 4 ∧
      t.txCount = 4 ∧ t.rxCount = 8 ∧ t.lineSel < cfg.platformLines ∧ t.txQueued = min cfg.preloadBytes 4 ∧
      t.lineDir = .output ∧ t.lineLevel = true ∧ t.sampleCount = 0 ∧ t.tstate = .writing ∧ t.rxBuf = s.tr.rxBuf ∧
      t.rxDecoded = s.tr.rxDecoded) ∧
    exec (.readReq r crc) s = .next (s.readReqCmd cfg r crc) ∧
    (∀ c : Config, r ≠ 0x02 → (∀ k : Nat, k < c.nReadExt → c.rreg k ≠ r) →
      s.readReqCmd c r crc = { s with reply := { ok := false, res := 0, rdata := [], sampleOut := [] } }) ∧
    ∃ t : Transport, exec .ifcntReq s
        = .next { s with tr := t, reply := { ok := true, res := 0, rdata := [], sampleOut := [] } } ∧
      t.txBuf = [0x05, 0x00, 0x02, 0xCE] ++ s.tr.txBuf.drop 4 ∧
      t.txCount = 4 ∧ t.rxCount = 8 ∧ t.lineSel < cfg.platformLines ∧ t.txQueued = min cfg.preloadBytes 4 ∧
      t.lineDir = .output ∧ t.lineLevel = true ∧ t.sampleCount = 0 ∧ t.tstate = .writing ∧ t.rxBuf = s.tr.rxBuf ∧
      t.rxDecoded = s.tr.rxDecoded

/-- R109, R111, R176, R151: a clean reply that arrives while the capture begins completes it, and the captured samples
decode to exactly its eight bytes; a reply that arrives while the line is no input has no effect. That a response datagram
stands for a clean reply is log entry 8. -/
def Obligations.RepliesAreCaptured : Prop :=
  ∀ (s : State) (sync addr ifcnt crc reg : Byte) (hi : BitVec 24) (v : Word),
    (s.tr.tstate ≠ .reading →
      exec (.ifcntResp sync addr hi ifcnt crc) s = .next s ∧ exec (.readResp reg v crc) s = .next s) ∧
    (s.tr.tstate = .reading → s.tr.samples = [] →
      (∃ t : Transport, exec (.ifcntResp sync addr hi ifcnt crc) s = .next { s with tr := t } ∧ t.tstate = .complete ∧
        t.rxCount = s.tr.rxCount ∧ t.lineDir = .output ∧ t.lineLevel = true ∧
        decodeSamples cfg.oversample t.samples 8 = [sync, addr, 0x02, hi.extractLsb' 16 8, hi.extractLsb' 8 8,
          hi.extractLsb' 0 8, ifcnt, crc]) ∧
      ∃ t : Transport, exec (.readResp reg v crc) s = .next { s with tr := t } ∧ t.tstate = .complete ∧
        t.rxCount = s.tr.rxCount ∧ t.lineDir = .output ∧ t.lineLevel = true ∧
        decodeSamples cfg.oversample t.samples 8 = [0x05, 0xFF, reg, v.extractLsb' 24 8, v.extractLsb' 16 8,
          v.extractLsb' 8 8, v.extractLsb' 0 8, crc])

/-! ### The whole machine -/

/-- R223 (a), which the spec marks as derived from R202 and R221, and R208: no step loses a write. A slot that is active and
dirty or pending is so after every step, unless it was clean, its WRITE was accepted in the step and `numWrites` counted, or
the driver was or is without power, or it became `notInitialised`. A slot reconfigured while its WRITE is in flight stays
dirty or pending when that WRITE is accepted. -/
def Obligations.NoWriteIsLost : Prop :=
  ∀ (s t : State) (i : Nat) (d d' : Driver) (j : WSlot), s.Inv cfg → step s = .next t →
    s.drivers[i]? = some d → t.drivers[i]? = some d' → j.index < d.nWrite →
    ((d.w.get j).dirty = true ∨ d.pending = .write j) →
    ((d'.w.get j).dirty = true ∨ d'.pending = .write j) ∨
      (d.pending = .write j ∧ (d.w.get j).dirty = false ∧ d'.numWrites = d.numWrites + 1) ∨
      d.state = .noPower ∨ d'.state = .noPower ∨ d'.state = .notInitialised

/-- R35, and R297, which the spec marks as derived from R296 and R213: no step but `INIT` and `GETACC` clears a bit of an
accumulated value. -/
def Obligations.LatchedBitsStay : Prop :=
  ∀ (s t : State) (i k b : Nat) (d : Driver) (x : ReadSlot), step s = .next t →
    (∀ (j : Instr) (s' : State), s.fetch = .run j s' → (∀ n, j ≠ .init n) ∧ ∀ drv keep, j ≠ .getacc drv keep) →
    s.drivers[i]? = some d → d.r[k]? = some x → x.accum.getLsbD b = true →
    ∃ (d' : Driver) (x' : ReadSlot), t.drivers[i]? = some d' ∧ d'.r[k]? = some x' ∧ x'.accum.getLsbD b = true

/-- R240: the bring-up state of a driver moves only along the table: never from `ready` back to `initialising`, out of
`notInitialised` only to `noPower`, and out of `noPower` only to `initialising`. -/
def Obligations.DriverStatesFollowTheTable : Prop :=
  ∀ (s t : State) (i : Nat) (d d' : Driver), s.Inv cfg → step s = .next t →
    s.drivers[i]? = some d → t.drivers[i]? = some d' →
    (d.state = .ready → d'.state ≠ .initialising) ∧
    (d.state = .notInitialised → d'.state = .notInitialised ∨ d'.state = .noPower) ∧
    (d.state = .noPower → d'.state = .noPower ∨ d'.state = .initialising)

/-- R88, R321: no step but `SPIN`, `INIT` and `SHUTDOWN` changes a read value, a counter, `lastIfCount`, the state, the
pending transfer or the polling fields of a driver, or the bus; a step that handles an event or a tick changes the Transport
and what is still to arrive, and nothing else at all. -/
def Obligations.OnlySpinServesDrivers : Prop :=
  ∀ s t : State, step s = .next t →
    ((∀ (j : Instr) (s' : State), s.fetch = .run j s' → (∀ n, j ≠ .init n) ∧ (∀ now p, j ≠ .spin now p) ∧ j ≠ .shutdown) →
      t.running = s.running ∧ t.currentDriver = s.currentDriver ∧ t.lastServiced = s.lastServiced ∧
      t.transferStartTime = s.transferStartTime ∧ t.nDrivers = s.nDrivers ∧
      ∀ (i : Nat) (d d' : Driver), s.drivers[i]? = some d → t.drivers[i]? = some d' →
        d'.r.map ReadSlot.last = d.r.map ReadSlot.last ∧ d'.numReads = d.numReads ∧ d'.numWrites = d.numWrites ∧
        d'.readErrors = d.readErrors ∧ d'.writeErrors = d.writeErrors ∧ d'.numTimeouts = d.numTimeouts ∧
        d'.lastIfCount = d.lastIfCount ∧ d'.state = d.state ∧ d'.pending = d.pending ∧ d'.nWrite = d.nWrite ∧
        d'.maxReadCount = d.maxReadCount ∧ d'.readCursor = d.readCursor ∧ d'.readCycleDone = d.readCycleDone ∧
        d'.widened = d.widened) ∧
    ∀ rest : List Input,
      ((∃ capture, s.inQ = .evUnit capture :: rest) ∨ s.inQ = .evHwErr :: rest ∨
        (∃ lineIn hwErr, s.inQ = .tick lineIn hwErr :: rest)) →
      ∃ tr : Transport, t = { s with inQ := rest, tr := tr }
end

