-- ==== Sys2Proof/Laws/Codec.lean ====
section
/-! SUPPORT. The codec: lengths and positions of an encoding (R140, R142, R174), what the backward scan finds (R146), and
how the decoding loop ends (R144, R150). -/

namespace Sys2Proof.Machine

/-- The sampling point lies inside its bit (R145). -/
theorem midpoint_lt (os : Nat) (h : 2 ≤ os) : midpoint os < os ∧ 1 ≤ midpoint os := by
  unfold midpoint
  omega

/-- Expansion multiplies the length (R101). -/
theorem expandBits_length (os : Nat) (bits : List Level) : (expandBits os bits).length = bits.length * os := by
  simp [expandBits]

/-- Sample `s` of bit `t` of an expansion is that bit (R101). -/
theorem expandBits_get (os : Nat) : ∀ (bits : List Level) (t s : Nat), s < os →
    (expandBits os bits)[t * os + s]? = bits[t]? := by
  intro bits
  induction bits with
  | nil => simp [expandBits]
  | cons a l ih =>
    intro t s hs
    unfold expandBits at *
    cases t with
    | zero => simp [List.getElem?_append, hs]
    | succ t =>
      have h1 : ¬(t + 1) * os + s < os := by nlinarith
      have h2 : (t + 1) * os + s - os = t * os + s := by
        rw [Nat.add_mul]
        omega
      simp [List.getElem?_append, h1, h2, ih t s hs]

/-- The length of one encoding (R140). -/
theorem encodeByte_length (os : Nat) (b : Byte) : (encodeByte os b).length = 10 * os := by
  rw [encodeByte, expandBits_length]
  rfl

/-- The length of the encoding of a buffer (R142). -/
theorem encodeBytes_length (os : Nat) (bytes : List Byte) : (encodeBytes os bytes).length = 10 * os * bytes.length := by
  simp [encodeBytes, List.length_flatMap, encodeByte_length]
  ring

/-- The backward scan stops at the first sample of the run it starts in (R146). -/
theorem scanBack_eq (S : List Level) (v : Level) : ∀ n f p : Nat, f ≤ p → p - f ≤ n → n ≤ p →
    (∀ j, f ≤ j → j ≤ p → S[j]? = some v) → (f = 0 ∨ S[f - 1]? ≠ some v) → scanBack S v n p = f := by
  intro n
  induction n with
  | zero =>
    intro f p h1 h2 h3 h4 h5
    simp only [scanBack]
    omega
  | succ n ih =>
    intro f p h1 h2 h3 h4 h5
    simp only [scanBack]
    by_cases hp : f = p
    · subst hp
      rw [if_neg]
      rcases h5 with h5 | h5
      · omega
      · exact h5
    · rw [if_pos (h4 (p - 1) (by omega) (by omega))]
      exact ih f (p - 1) (by omega) (by omega) (by omega) (fun j a b => h4 j a (by omega)) h5

/-- Everything one pass of the loop can do (R144). -/
theorem decodeLoop_step (os : Nat) (S : List Level) (n fuel : Nat) (x : DecodeVars) :
    decodeLoop os S n (fuel + 1) x = if n ≤ x.bytes.length then x.bytes
      else match S[x.lastEdge + midpoint os]? with
        | none => x.bytes
        | some v =>
          match takeBit v (resync os S (x.lastEdge + midpoint os) v x) with
          | none => x.bytes
          | some y => decodeLoop os S n fuel { y with lastEdge := y.lastEdge + os } := rfl

/-- The loop stops when it has the bytes asked for (R144, R150). -/
theorem decodeLoop_done (os : Nat) (S : List Level) (n fuel : Nat) (x : DecodeVars) (h : n ≤ x.bytes.length) :
    decodeLoop os S n fuel x = x.bytes := by
  cases fuel <;> simp [decodeLoop, h]

/-- A list that is long enough is only cut. -/
theorem fillTo_of_le {α : Type} (n : Nat) (l : List α) (free : Nat → α) (h : n ≤ l.length) : fillTo n l free = l.take n := by
  simp [fillTo, Nat.sub_eq_zero_of_le h]

/-- Filling gives the length asked for. -/
theorem fillTo_length {α : Type} (n : Nat) (l : List α) (free : Nat → α) : (fillTo n l free).length = n := by
  simp only [fillTo, List.length_append, List.length_take, List.length_map, List.length_range]
  omega

end Sys2Proof.Machine
end

