-- ==== Sys2Proof/Laws/Encoding.lean ====
section
/-! SUPPORT. Reading back the fields that the encoder writes: command words (R125), flags, register bytes (R71), byte order
(R13, R73), and the frame (R100). -/

namespace Sys2Proof

open Sys2Proof.Machine

/-- The high part of a concatenation. -/
theorem extract_append_left {n m : Nat} (a : BitVec n) (b : BitVec m) : (a ++ b).extractLsb' m n = a := by
  ext i hi
  simp [BitVec.getLsbD_append, hi]

/-- The low part of a concatenation. -/
theorem extract_append_right {n m : Nat} (a : BitVec n) (b : BitVec m) : (a ++ b).extractLsb' 0 m = b := by
  ext i hi
  simp [BitVec.getLsbD_append, hi]

/-- A field of a concatenation that lies in its high part. -/
theorem extract_append_high {n m : Nat} (a : BitVec n) (b : BitVec m) (start len : Nat) :
    (a ++ b).extractLsb' (m + start) len = a.extractLsb' start len := by
  ext i hi
  simp [BitVec.getLsbD_append, Nat.add_assoc]

/-- The fields of a command word (R125). -/
theorem cmdWord_fields (op drv : Byte) (a b : Word) :
    cmdOp (cmdWord op drv a b) = op ∧ cmdDrv (cmdWord op drv a b) = drv ∧ cmdA (cmdWord op drv a b) = a ∧
      cmdB (cmdWord op drv a b) = b := by
  unfold cmdOp cmdDrv cmdA cmdB cmdWord
  refine ⟨?_, ?_, ?_, extract_append_right _ _⟩
  · rw [extract_append_high (op ++ drv ++ a) b 40 8, extract_append_high (op ++ drv) a 8 8, extract_append_left]
  · rw [extract_append_high (op ++ drv ++ a) b 32 8, extract_append_high (op ++ drv) a 0 8, extract_append_right]
  · rw [extract_append_high (op ++ drv ++ a) b 0 32, extract_append_right]

/-- A command word is decoded by its fields (R126). -/
theorem decode_cmdWord (op drv : Byte) (a b : Word) : decode (.cmd (cmdWord op drv a b)) = decodeFields op drv a b := by
  obtain ⟨h1, h2, h3, h4⟩ := cmdWord_fields op drv a b
  simp only [decode, decodeCmd, h1, h2, h3, h4]

/-- A flag is read back from its operand field (R127). -/
theorem flagField_bit (x : Bool) : (flagField x).getLsbD 0 = x := by cases x <;> rfl

/-- A value is rebuilt from its payload bytes (R13). -/
theorem be32_bytes (v : Word) :
    be32 (v.extractLsb' 24 8) (v.extractLsb' 16 8) (v.extractLsb' 8 8) (v.extractLsb' 0 8) = v := by
  unfold be32
  ext i hi
  simp only [BitVec.getElem_append, BitVec.getElem_extractLsb']
  rw [← BitVec.getLsbD_eq_getElem hi]
  split_ifs <;> (congr 1; omega)

/-- The payload bytes of a value built from bytes (R13). -/
theorem bytesBe_be32 (b3 b2 b1 b0 : Byte) : bytesBe (be32 b3 b2 b1 b0) = [b3, b2, b1, b0] := by
  unfold be32 bytesBe
  rw [extract_append_high (b3 ++ b2 ++ b1) b0 16 8, extract_append_high (b3 ++ b2) b1 8 8, extract_append_left,
    extract_append_high (b3 ++ b2 ++ b1) b0 8 8, extract_append_high (b3 ++ b2) b1 0 8, extract_append_right,
    extract_append_high (b3 ++ b2 ++ b1) b0 0 8, extract_append_right, extract_append_right]

/-- Bit 7 of the register byte of a READ request is clear (R110). -/
theorem readRegByte_msb (r : RegNum) : (readRegByte r).msb = false := by
  revert r
  decide +kernel

/-- Bit 7 of the register byte of a WRITE request is set (R107). -/
theorem writeRegByte_msb (r : RegNum) : (writeRegByte r).msb = true := by
  revert r
  decide +kernel

/-- The register number of a READ request's register byte (R71). -/
theorem regOfByte_readRegByte (r : RegNum) : regOfByte (readRegByte r) = r := extract_append_right _ _

/-- The register number of a WRITE request's register byte (R71). -/
theorem regOfByte_writeRegByte (r : RegNum) : regOfByte (writeRegByte r) = r := extract_append_right _ _

/-- A byte with bit 7 clear is the READ register byte of its number (R71, R110). -/
theorem readRegByte_regOfByte (b : Byte) (h : b.msb = false) : readRegByte (regOfByte b) = b := by
  revert b
  decide +kernel

/-- A byte with bit 7 set is the WRITE register byte of its number (R71, R107). -/
theorem writeRegByte_regOfByte (b : Byte) (h : b.msb = true) : writeRegByte (regOfByte b) = b := by
  revert b
  decide +kernel

/-- The frame of a byte decodes to that byte (R100). -/
theorem decodeFrame_frame (b : Byte) : decodeFrame (1#1 ++ b ++ 0#1) = .ok (.frame b) := by
  have e0 : ∀ b : Byte, (1#1 ++ b ++ 0#1).getLsbD 0 = false := by decide +kernel
  have e9 : ∀ b : Byte, (1#1 ++ b ++ 0#1).getLsbD 9 = true := by decide +kernel
  have e : (1#1 ++ b ++ 0#1).extractLsb' 1 8 = b := by
    rw [extract_append_high (1#1 ++ b) 0#1 0 8, extract_append_right]
  simp only [decodeFrame, e0, e9, e, and_self, if_true]

end Sys2Proof
end

