-- ==== Sys2Proof/Laws/State.lean ====
section
/-! SUPPORT. The small lemmas of the state record: one per field per named update, and reading a slot after writing one. -/

namespace Sys2Proof.Machine

section StateUpdates

variable (s : State) (t : Transport) (ok : Bool) (res : Word) (rd : List Byte) (so : List Level) (i : Nat) (f : Driver → Driver)

@[simp] theorem answer_running : (s.answer ok res rd so).running = s.running := rfl
@[simp] theorem answer_currentDriver : (s.answer ok res rd so).currentDriver = s.currentDriver := rfl
@[simp] theorem answer_lastServiced : (s.answer ok res rd so).lastServiced = s.lastServiced := rfl
@[simp] theorem answer_transferStartTime : (s.answer ok res rd so).transferStartTime = s.transferStartTime := rfl
@[simp] theorem answer_drivers : (s.answer ok res rd so).drivers = s.drivers := rfl
@[simp] theorem answer_tr : (s.answer ok res rd so).tr = s.tr := rfl
@[simp] theorem answer_reply : (s.answer ok res rd so).reply = { ok := ok, res := res, rdata := rd, sampleOut := so } := rfl
@[simp] theorem answer_ports : (s.answer ok res rd so).ports = s.ports := rfl
@[simp] theorem answer_inQ : (s.answer ok res rd so).inQ = s.inQ := rfl

@[simp] theorem refuse_running : (s.refuse).running = s.running := rfl
@[simp] theorem refuse_currentDriver : (s.refuse).currentDriver = s.currentDriver := rfl
@[simp] theorem refuse_lastServiced : (s.refuse).lastServiced = s.lastServiced := rfl
@[simp] theorem refuse_transferStartTime : (s.refuse).transferStartTime = s.transferStartTime := rfl
@[simp] theorem refuse_drivers : (s.refuse).drivers = s.drivers := rfl
@[simp] theorem refuse_tr : (s.refuse).tr = s.tr := rfl
@[simp] theorem refuse_reply : (s.refuse).reply = { ok := false, res := 0, rdata := [], sampleOut := [] } := rfl
@[simp] theorem refuse_ports : (s.refuse).ports = s.ports := rfl
@[simp] theorem refuse_inQ : (s.refuse).inQ = s.inQ := rfl

@[simp] theorem withTr_running : (s.withTr t).running = s.running := rfl
@[simp] theorem withTr_currentDriver : (s.withTr t).currentDriver = s.currentDriver := rfl
@[simp] theorem withTr_lastServiced : (s.withTr t).lastServiced = s.lastServiced := rfl
@[simp] theorem withTr_transferStartTime : (s.withTr t).transferStartTime = s.transferStartTime := rfl
@[simp] theorem withTr_drivers : (s.withTr t).drivers = s.drivers := rfl
@[simp] theorem withTr_tr : (s.withTr t).tr = t := rfl
@[simp] theorem withTr_reply : (s.withTr t).reply = s.reply := rfl
@[simp] theorem withTr_ports : (s.withTr t).ports = s.ports := rfl
@[simp] theorem withTr_inQ : (s.withTr t).inQ = s.inQ := rfl

@[simp] theorem updDriver_running : (s.updDriver i f).running = s.running := rfl
@[simp] theorem updDriver_currentDriver : (s.updDriver i f).currentDriver = s.currentDriver := rfl
@[simp] theorem updDriver_lastServiced : (s.updDriver i f).lastServiced = s.lastServiced := rfl
@[simp] theorem updDriver_transferStartTime : (s.updDriver i f).transferStartTime = s.transferStartTime := rfl
@[simp] theorem updDriver_drivers : (s.updDriver i f).drivers = s.drivers.modify i f := rfl
@[simp] theorem updDriver_tr : (s.updDriver i f).tr = s.tr := rfl
@[simp] theorem updDriver_reply : (s.updDriver i f).reply = s.reply := rfl
@[simp] theorem updDriver_ports : (s.updDriver i f).ports = s.ports := rfl
@[simp] theorem updDriver_inQ : (s.updDriver i f).inQ = s.inQ := rfl

@[simp] theorem retire_running : (s.retire i).running = s.running := rfl
@[simp] theorem retire_currentDriver : (s.retire i).currentDriver = none := rfl
@[simp] theorem retire_lastServiced : (s.retire i).lastServiced = i := rfl
@[simp] theorem retire_transferStartTime : (s.retire i).transferStartTime = s.transferStartTime := rfl
@[simp] theorem retire_drivers : (s.retire i).drivers = s.drivers := rfl
@[simp] theorem retire_tr : (s.retire i).tr = s.tr := rfl
@[simp] theorem retire_reply : (s.retire i).reply = s.reply := rfl
@[simp] theorem retire_ports : (s.retire i).ports = s.ports := rfl
@[simp] theorem retire_inQ : (s.retire i).inQ = s.inQ := rfl

end StateUpdates

section DriverUpdates

variable (d : Driver) (i : WSlot) (x : Bool) (v : Word) (k : Nat) (y : ReadSlot)

@[simp] theorem setDirty_state : (d.setDirty i x).state = d.state := rfl
@[simp] theorem setDirty_w : (d.setDirty i x).w = d.w.set i { d.w.get i with dirty := x } := rfl
@[simp] theorem setDirty_r : (d.setDirty i x).r = d.r := rfl
@[simp] theorem setDirty_numReads : (d.setDirty i x).numReads = d.numReads := rfl
@[simp] theorem setDirty_numWrites : (d.setDirty i x).numWrites = d.numWrites := rfl
@[simp] theorem setDirty_readErrors : (d.setDirty i x).readErrors = d.readErrors := rfl
@[simp] theorem setDirty_writeErrors : (d.setDirty i x).writeErrors = d.writeErrors := rfl
@[simp] theorem setDirty_numTimeouts : (d.setDirty i x).numTimeouts = d.numTimeouts := rfl
@[simp] theorem setDirty_lastIfCount : (d.setDirty i x).lastIfCount = d.lastIfCount := rfl
@[simp] theorem setDirty_nWrite : (d.setDirty i x).nWrite = d.nWrite := rfl
@[simp] theorem setDirty_maxReadCount : (d.setDirty i x).maxReadCount = d.maxReadCount := rfl
@[simp] theorem setDirty_readCursor : (d.setDirty i x).readCursor = d.readCursor := rfl
@[simp] theorem setDirty_readCycleDone : (d.setDirty i x).readCycleDone = d.readCycleDone := rfl
@[simp] theorem setDirty_widened : (d.setDirty i x).widened = d.widened := rfl
@[simp] theorem setDirty_pending : (d.setDirty i x).pending = d.pending := rfl
@[simp] theorem setDirty_microstepShift : (d.setDirty i x).microstepShift = d.microstepShift := rfl
@[simp] theorem setDirty_interpolate : (d.setDirty i x).interpolate = d.interpolate := rfl
@[simp] theorem setDirty_motorCurrent : (d.setDirty i x).motorCurrent = d.motorCurrent := rfl
@[simp] theorem setDirty_standstillFraction : (d.setDirty i x).standstillFraction = d.standstillFraction := rfl
@[simp] theorem setDirty_linePin : (d.setDirty i x).linePin = d.linePin := rfl
@[simp] theorem setDirty_diagPin : (d.setDirty i x).diagPin = d.diagPin := rfl

@[simp] theorem updateRegister_state : (d.updateRegister i v).state = d.state := rfl
@[simp] theorem updateRegister_w : (d.updateRegister i v).w = d.w.set i { regNum := (d.w.get i).regNum, value := v, crc := slotCrc (d.w.get i).regNum v, dirty := true } := rfl
@[simp] theorem updateRegister_r : (d.updateRegister i v).r = d.r := rfl
@[simp] theorem updateRegister_numReads : (d.updateRegister i v).numReads = d.numReads := rfl
@[simp] theorem updateRegister_numWrites : (d.updateRegister i v).numWrites = d.numWrites := rfl
@[simp] theorem updateRegister_readErrors : (d.updateRegister i v).readErrors = d.readErrors := rfl
@[simp] theorem updateRegister_writeErrors : (d.updateRegister i v).writeErrors = d.writeErrors := rfl
@[simp] theorem updateRegister_numTimeouts : (d.updateRegister i v).numTimeouts = d.numTimeouts := rfl
@[simp] theorem updateRegister_lastIfCount : (d.updateRegister i v).lastIfCount = d.lastIfCount := rfl
@[simp] theorem updateRegister_nWrite : (d.updateRegister i v).nWrite = d.nWrite := rfl
@[simp] theorem updateRegister_maxReadCount : (d.updateRegister i v).maxReadCount = d.maxReadCount := rfl
@[simp] theorem updateRegister_readCursor : (d.updateRegister i v).readCursor = d.readCursor := rfl
@[simp] theorem updateRegister_readCycleDone : (d.updateRegister i v).readCycleDone = d.readCycleDone := rfl
@[simp] theorem updateRegister_widened : (d.updateRegister i v).widened = d.widened := rfl
@[simp] theorem updateRegister_pending : (d.updateRegister i v).pending = d.pending := rfl
@[simp] theorem updateRegister_microstepShift : (d.updateRegister i v).microstepShift = d.microstepShift := rfl
@[simp] theorem updateRegister_interpolate : (d.updateRegister i v).interpolate = d.interpolate := rfl
@[simp] theorem updateRegister_motorCurrent : (d.updateRegister i v).motorCurrent = d.motorCurrent := rfl
@[simp] theorem updateRegister_standstillFraction : (d.updateRegister i v).standstillFraction = d.standstillFraction := rfl
@[simp] theorem updateRegister_linePin : (d.updateRegister i v).linePin = d.linePin := rfl
@[simp] theorem updateRegister_diagPin : (d.updateRegister i v).diagPin = d.diagPin := rfl

@[simp] theorem setReadSlot_state : (d.setReadSlot k y).state = d.state := rfl
@[simp] theorem setReadSlot_w : (d.setReadSlot k y).w = d.w := rfl
@[simp] theorem setReadSlot_r : (d.setReadSlot k y).r = d.r.set k y := rfl
@[simp] theorem setReadSlot_numReads : (d.setReadSlot k y).numReads = d.numReads := rfl
@[simp] theorem setReadSlot_numWrites : (d.setReadSlot k y).numWrites = d.numWrites := rfl
@[simp] theorem setReadSlot_readErrors : (d.setReadSlot k y).readErrors = d.readErrors := rfl
@[simp] theorem setReadSlot_writeErrors : (d.setReadSlot k y).writeErrors = d.writeErrors := rfl
@[simp] theorem setReadSlot_numTimeouts : (d.setReadSlot k y).numTimeouts = d.numTimeouts := rfl
@[simp] theorem setReadSlot_lastIfCount : (d.setReadSlot k y).lastIfCount = d.lastIfCount := rfl
@[simp] theorem setReadSlot_nWrite : (d.setReadSlot k y).nWrite = d.nWrite := rfl
@[simp] theorem setReadSlot_maxReadCount : (d.setReadSlot k y).maxReadCount = d.maxReadCount := rfl
@[simp] theorem setReadSlot_readCursor : (d.setReadSlot k y).readCursor = d.readCursor := rfl
@[simp] theorem setReadSlot_readCycleDone : (d.setReadSlot k y).readCycleDone = d.readCycleDone := rfl
@[simp] theorem setReadSlot_widened : (d.setReadSlot k y).widened = d.widened := rfl
@[simp] theorem setReadSlot_pending : (d.setReadSlot k y).pending = d.pending := rfl
@[simp] theorem setReadSlot_microstepShift : (d.setReadSlot k y).microstepShift = d.microstepShift := rfl
@[simp] theorem setReadSlot_interpolate : (d.setReadSlot k y).interpolate = d.interpolate := rfl
@[simp] theorem setReadSlot_motorCurrent : (d.setReadSlot k y).motorCurrent = d.motorCurrent := rfl
@[simp] theorem setReadSlot_standstillFraction : (d.setReadSlot k y).standstillFraction = d.standstillFraction := rfl
@[simp] theorem setReadSlot_linePin : (d.setReadSlot k y).linePin = d.linePin := rfl
@[simp] theorem setReadSlot_diagPin : (d.setReadSlot k y).diagPin = d.diagPin := rfl

@[simp] theorem powerOff_state : (d.powerOff).state = .noPower := rfl
@[simp] theorem powerOff_w : (d.powerOff).w = d.w := rfl
@[simp] theorem powerOff_r : (d.powerOff).r = d.r := rfl
@[simp] theorem powerOff_numReads : (d.powerOff).numReads = d.numReads := rfl
@[simp] theorem powerOff_numWrites : (d.powerOff).numWrites = d.numWrites := rfl
@[simp] theorem powerOff_readErrors : (d.powerOff).readErrors = d.readErrors := rfl
@[simp] theorem powerOff_writeErrors : (d.powerOff).writeErrors = d.writeErrors := rfl
@[simp] theorem powerOff_numTimeouts : (d.powerOff).numTimeouts = d.numTimeouts := rfl
@[simp] theorem powerOff_lastIfCount : (d.powerOff).lastIfCount = d.lastIfCount := rfl
@[simp] theorem powerOff_nWrite : (d.powerOff).nWrite = d.nWrite := rfl
@[simp] theorem powerOff_maxReadCount : (d.powerOff).maxReadCount = 0 := rfl
@[simp] theorem powerOff_readCursor : (d.powerOff).readCursor = d.readCursor := rfl
@[simp] theorem powerOff_readCycleDone : (d.powerOff).readCycleDone = d.readCycleDone := rfl
@[simp] theorem powerOff_widened : (d.powerOff).widened = d.widened := rfl
@[simp] theorem powerOff_pending : (d.powerOff).pending = .none := rfl
@[simp] theorem powerOff_microstepShift : (d.powerOff).microstepShift = d.microstepShift := rfl
@[simp] theorem powerOff_interpolate : (d.powerOff).interpolate = d.interpolate := rfl
@[simp] theorem powerOff_motorCurrent : (d.powerOff).motorCurrent = d.motorCurrent := rfl
@[simp] theorem powerOff_standstillFraction : (d.powerOff).standstillFraction = d.standstillFraction := rfl
@[simp] theorem powerOff_linePin : (d.powerOff).linePin = d.linePin := rfl
@[simp] theorem powerOff_diagPin : (d.powerOff).diagPin = d.diagPin := rfl

end DriverUpdates

/-- Reading a write slot after writing one (R28). -/
@[simp] theorem get_set (f : WriteFile) (i j : WSlot) (x : WriteSlot) :
    (f.set i x).get j = if j = i then x else f.get j := by
  cases i <;> cases j <;> rfl

@[simp] theorem get_build (x : WSlot → WriteSlot) (j : WSlot) : (WriteFile.build x).get j = x j := by
  cases j <;> rfl

@[simp] theorem get_mapSlots (f : WriteFile) (g : WSlot → WriteSlot → WriteSlot) (j : WSlot) :
    (f.mapSlots g).get j = g j (f.get j) := get_build _ j

/-- Two write files with the same slots are the same. -/
theorem writeFile_ext (f g : WriteFile) (h : ∀ j, f.get j = g.get j) : f = g := by
  cases f; cases g
  simp only [WriteFile.mk.injEq]
  exact ⟨h .globalConf, h .slaveConf, h .chopperConf, h .currentConf, h .pwmConf, h .pwmThreshold, h .coolThreshold,
    h .coolstepConf, h .stallThreshold⟩

/-- Writing back what a slot holds changes nothing. -/
theorem set_get_self (f : WriteFile) (i : WSlot) : f.set i (f.get i) = f := by
  cases i <;> rfl

/-- Another driver is untouched (R223 (d)). -/
theorem updDriver_getElem?_ne (s : State) (i j : Nat) (f : Driver → Driver) (h : i ≠ j) :
    (s.updDriver i f).drivers[j]? = s.drivers[j]? := by
  simp [h]

/-- The driver acted on. -/
theorem updDriver_getElem?_self (s : State) (i : Nat) (f : Driver → Driver) :
    (s.updDriver i f).drivers[i]? = s.drivers[i]?.map f := by
  simp

@[simp] theorem updDriver_nDrivers (s : State) (i : Nat) (f : Driver → Driver) :
    (s.updDriver i f).nDrivers = s.nDrivers := by
  simp [State.nDrivers]

@[simp] theorem withTr_nDrivers (s : State) (t : Transport) : (s.withTr t).nDrivers = s.nDrivers := rfl

@[simp] theorem answer_nDrivers (s : State) (ok : Bool) (res : Word) (rd : List Byte) (so : List Level) :
    (s.answer ok res rd so).nDrivers = s.nDrivers := rfl

/-- The write slots are listed by index, each once (R30). -/
theorem mem_all (i : WSlot) : i ∈ WSlot.all := by cases i <;> decide

theorem index_lt (i : WSlot) : i.index < 9 := by cases i <;> decide

theorem index_inj (i j : WSlot) (h : i.index = j.index) : i = j := by
  cases i <;> cases j <;> first | rfl | exact absurd h (by decide)

theorem slotOfIndex_index (i : WSlot) : slotOfIndex i.index = some i := by cases i <;> rfl

end Sys2Proof.Machine
end

