-- ==== Sys2Proof/Laws/Ops.lean ====
section
/-! SUPPORT. For each shared operation over the state, what it can do, said once: acting on a driver, the Transport's
transitions, the error kinds, and the tests on a driver. -/

namespace Sys2Proof.Machine

/-! ### Acting on one driver -/

/-- Acting on a driver that exists replaces it and nothing else. -/
theorem updDriver_eq_set (s : State) (i : Nat) (f : Driver → Driver) (d : Driver) (h : s.drivers[i]? = some d) :
    s.updDriver i f = { s with drivers := s.drivers.set i (f d) } := by
  have : s.drivers.modify i f = s.drivers.set i (f d) := by
    apply List.ext_getElem?
    intro j
    obtain ⟨hi, hd⟩ := List.getElem?_eq_some_iff.mp h
    by_cases hj : i = j
    · subst hj
      simp [hi, hd]
    · simp [hj]
  simp only [State.updDriver, this]

/-- Acting on a driver that does not exist does nothing. -/
theorem updDriver_none (s : State) (i : Nat) (f : Driver → Driver) (h : s.drivers[i]? = none) : s.updDriver i f = s := by
  have : s.drivers.modify i f = s.drivers := by
    apply List.ext_getElem?
    intro j
    by_cases hj : i = j
    · subst hj
      simp [h]
    · simp [hj]
  simp only [State.updDriver, this]

/-- A command on a driver that exists, with the engine running, does what `f` says. -/
theorem onDriver_eq_some (s : State) (drv : Byte) (f : Driver → Option (Driver × Word)) (d d' : Driver) (res : Word)
    (hr : s.running = true) (hd : s.drivers[drv.toNat]? = some d) (hf : f d = some (d', res)) :
    s.onDriver drv f = { s with
      drivers := s.drivers.set drv.toNat d', reply := { ok := true, res := res, rdata := [], sampleOut := [] } } := by
  simp only [State.onDriver, hr, hd, hf, if_true, updDriver_eq_set s _ _ d hd, State.answer]

/-- A command on a driver that `f` refuses. -/
theorem onDriver_eq_refuse (s : State) (drv : Byte) (f : Driver → Option (Driver × Word))
    (h : s.running = false ∨ s.drivers[drv.toNat]? = none ∨ ∃ d, s.drivers[drv.toNat]? = some d ∧ f d = none) :
    s.onDriver drv f = s.refuse := by
  unfold State.onDriver
  rcases h with h | h | ⟨d, h, hf⟩
  · simp [h]
  · simp [h]
  · simp [h, hf]

/-- Everything a command on a driver can do: refuse, or replace that driver and answer (R128). -/
theorem onDriver_cases (s : State) (drv : Byte) (f : Driver → Option (Driver × Word)) :
    s.onDriver drv f = s.refuse ∨
      ∃ d d' res, s.running = true ∧ s.drivers[drv.toNat]? = some d ∧ f d = some (d', res) ∧
        s.onDriver drv f = { s with
          drivers := s.drivers.set drv.toNat d', reply := { ok := true, res := res, rdata := [], sampleOut := [] } } := by
  by_cases hr : s.running = true
  · cases hd : s.drivers[drv.toNat]? with
    | none => exact .inl (onDriver_eq_refuse s drv f (.inr (.inl hd)))
    | some d =>
      cases hf : f d with
      | none => exact .inl (onDriver_eq_refuse s drv f (.inr (.inr ⟨d, hd, hf⟩)))
      | some p => exact .inr ⟨d, p.1, p.2, hr, rfl, hf, onDriver_eq_some s drv f d p.1 p.2 hr hd hf⟩
  · exact .inl (onDriver_eq_refuse s drv f (.inl (by simpa using hr)))

/-! ### The Transport -/

/-- The states `T_START` accepts (R163). -/
theorem mayStart_iff (x : TState) : x.mayStart = true ↔ x = .idle ∨ x = .complete ∨ x = .error := by
  cases x <;> simp [TState.mayStart]

/-- The states of a transfer in progress (R170). -/
theorem inTransfer_iff (x : TState) :
    x.inTransfer = true ↔ x = .writing ∨ x = .delay ∨ x = .readSync1 ∨ x = .readSync2 ∨ x = .reading := by
  cases x <;> simp [TState.inTransfer]

/-- An accepted `T_START` (R163). -/
theorem start_eq_some (c : Config) (line : Nat) (buf : List Byte) (rc : Nat) (t : Transport)
    (hs : t.tstate = .idle ∨ t.tstate = .complete ∨ t.tstate = .error) (hb : 1 ≤ buf.length) (hb' : buf.length ≤ 12)
    (hr : 1 ≤ rc) (hr' : rc ≤ 8) :
    t.start c line buf rc = some { t with
      lineSel := line, txBuf := buf ++ t.txBuf.drop buf.length, txCount := buf.length, rxCount := rc
      txQueued := min c.preloadBytes buf.length, lineDir := .output, lineLevel := true, sampleCount := 0
      rxValid := false, samples := [], tstate := .writing, timer := (c.idleBits + 10) * c.oversample, driven := 0 } :=
  if_pos ⟨(mayStart_iff _).mpr hs, hb, hb', hr, hr'⟩

/-- Everything `T_START` can do (R163). -/
theorem start_cases (c : Config) (line : Nat) (buf : List Byte) (rc : Nat) (t t' : Transport)
    (h : t.start c line buf rc = some t') :
    (t.tstate = .idle ∨ t.tstate = .complete ∨ t.tstate = .error) ∧ 1 ≤ buf.length ∧ buf.length ≤ 12 ∧ 1 ≤ rc ∧ rc ≤ 8 ∧
      t' = { t with
        lineSel := line, txBuf := buf ++ t.txBuf.drop buf.length, txCount := buf.length, rxCount := rc
        txQueued := min c.preloadBytes buf.length, lineDir := .output, lineLevel := true, sampleCount := 0
        rxValid := false, samples := [], tstate := .writing, timer := (c.idleBits + 10) * c.oversample, driven := 0 } := by
  unfold Transport.start at h
  split at h
  · rename_i hc
    obtain ⟨h1, h2, h3, h4, h5⟩ := hc
    exact ⟨(mayStart_iff _).mp h1, h2, h3, h4, h5, (Option.some.inj h).symm⟩
  · cases h

/-- When `T_START` is refused (R163). -/
theorem start_eq_none (c : Config) (line : Nat) (buf : List Byte) (rc : Nat) (t : Transport)
    (h : ¬(t.tstate = .idle ∨ t.tstate = .complete ∨ t.tstate = .error) ∨ buf.length = 0 ∨ 12 < buf.length ∨ rc = 0 ∨
      8 < rc) : t.start c line buf rc = none := by
  refine if_neg fun hc => ?_
  obtain ⟨h1, h2, h3, h4, h5⟩ := hc
  rw [mayStart_iff] at h1
  have h3' : buf.length ≤ 12 := h3
  have h5' : rc ≤ 8 := h5
  rcases h with h | h | h | h | h
  · exact h h1
  all_goals omega

/-- `EV_UNIT` while writing, bytes still to queue (R164). -/
theorem unitDone_queue (c : Config) (cap : List Level) (t : Transport) (h : t.tstate = .writing)
    (hq : t.txQueued < t.txCount) :
    t.unitDone c cap = { t with txQueued := t.txQueued + 1, timer := 10 * c.oversample } := by
  simp [Transport.unitDone, h, hq]

/-- `EV_UNIT` while writing, every byte queued (R165). -/
theorem unitDone_written (c : Config) (cap : List Level) (t : Transport) (h : t.tstate = .writing)
    (hq : t.txCount ≤ t.txQueued) : t.unitDone c cap = { t with tstate := .delay, timer := c.guard1Ticks } := by
  simp [Transport.unitDone, h, Nat.not_lt.mpr hq]

/-- `EV_UNIT` in `delay` (R166). -/
theorem unitDone_delay (c : Config) (cap : List Level) (t : Transport) (h : t.tstate = .delay) :
    t.unitDone c cap = { t with tstate := .readSync1, timer := c.guard2aTicks } := by
  simp [Transport.unitDone, h]

/-- `EV_UNIT` in `readSync1` (R167). -/
theorem unitDone_readSync1 (c : Config) (cap : List Level) (t : Transport) (h : t.tstate = .readSync1) :
    t.unitDone c cap = { t with tstate := .readSync2, timer := c.guard2bTicks } := by
  simp [Transport.unitDone, h]

/-- `EV_UNIT` in `readSync2` (R168). -/
theorem unitDone_readSync2 (c : Config) (cap : List Level) (t : Transport) (h : t.tstate = .readSync2) :
    t.unitDone c cap =
      { t with tstate := .reading, lineDir := .input, samples := [], sampleCount := 0, timer := captureLen c } := by
  simp [Transport.unitDone, h]

/-- `EV_UNIT` in `reading` (R169). -/
theorem unitDone_reading (c : Config) (cap : List Level) (t : Transport) (h : t.tstate = .reading) :
    t.unitDone c cap =
      { t with
        tstate := .complete, lineDir := .output, lineLevel := true, sampleCount := captureLen c
        samples := fillTo (captureLen c) (t.samples ++ cap) (Config.freeSample t.draws), draws := t.draws + 1
        timer := 0 } := by
  simp [Transport.unitDone, h]

/-- `EV_UNIT` outside a transfer (R173). -/
theorem unitDone_ignored (c : Config) (cap : List Level) (t : Transport) (h : t.tstate.inTransfer = false) :
    t.unitDone c cap = t := by
  unfold Transport.unitDone
  cases hs : t.tstate <;> simp_all [TState.inTransfer]

/-- `EV_HWERR` outside a transfer (R173). -/
theorem hwError_ignored (t : Transport) (h : t.tstate.inTransfer = false) : t.hwError = t := by
  simp [Transport.hwError, h]

/-- `EV_HWERR` during a transfer (R170). -/
theorem hwError_stops (t : Transport) (h : t.tstate.inTransfer = true) : t.hwError = t.halt .error := by
  simp [Transport.hwError, h]

/-- `T_CHECK` that delivers (R171). -/
theorem check_complete (c : Config) (t : Transport) (h : t.tstate = .complete) :
    t.check c = some { t with
      rxBuf := decodeSamples c.oversample t.samples t.rxCount
      rxDecoded := (decodeSamples c.oversample t.samples t.rxCount).length
      rxValid := true, lineDir := .output, lineLevel := true, tstate := .idle, samples := [] } := by
  simp [Transport.check, h]

/-- `T_CHECK` that answers false (R171). -/
theorem check_not_complete (c : Config) (t : Transport) (h : t.tstate ≠ .complete) : t.check c = none := by
  simp [Transport.check, h]

/-! ### The driver -/

/-- Slot `i` is active and dirty (R201). -/
theorem dirtyActive_iff (d : Driver) (i : WSlot) : d.dirtyActive i = true ↔ i.index < d.nWrite ∧ (d.w.get i).dirty = true := by
  simp [Driver.dirtyActive]

/-- No active slot is dirty (R243). -/
theorem allClean_iff (d : Driver) : d.allClean = true ↔ ∀ i : WSlot, i.index < d.nWrite → (d.w.get i).dirty = false := by
  simp [Driver.allClean, mem_all, Driver.dirtyActive, imp_iff_not_or]

/-- The condition of the bring-up test (R244). -/
theorem settled_iff (d : Driver) :
    d.settled = true ↔ d.state = .initialising ∧ (∀ i : WSlot, i.index < d.nWrite → (d.w.get i).dirty = false) ∧
      d.readCycleDone = true := by
  simp [Driver.settled, allClean_iff, and_assoc]

/-- Membership of the scheduler's set (R251). -/
theorem eligible_iff (d : Driver) : d.eligible = true ↔ d.maxReadCount ≠ 0 := by simp [Driver.eligible]

/-- The slot a request is made for: no active slot is dirty (R204). -/
theorem lowestDirty_eq_none (d : Driver) :
    d.lowestDirty = none ↔ ∀ i : WSlot, i.index < d.nWrite → (d.w.get i).dirty = false := by
  simp [Driver.lowestDirty, mem_all, Driver.dirtyActive]

/-- The slot a request is made for is active and dirty (R202). -/
theorem dirtyActive_of_lowestDirty (d : Driver) (i : WSlot) (h : d.lowestDirty = some i) :
    i.index < d.nWrite ∧ (d.w.get i).dirty = true :=
  (dirtyActive_iff d i).mp (List.find?_some h)

/-- A slot read from a list that has it (R34). -/
theorem readSlot_eq (c : Config) (d : Driver) (k : Nat) (x : ReadSlot) (h : d.r[k]? = some x) : d.readSlot c k = x := by
  simp [Driver.readSlot, List.getD, h]

/-- What `remark` leaves: only a slot's dirty flag may change (R209, R221). -/
theorem remark_eq (d : Driver) :
    d.remark = match d.pending with
      | .write i => { d with w := d.w.set i { d.w.get i with dirty := true } }
      | _ => d := rfl

/-- Everything a recorded error kind can do to a driver (R310, R311): the counter of its kind, the dirty flag of the slot in
flight, and for an absent driver its state. -/
theorem record_cases (d : Driver) (e : ErrorKind) :
    d.record e = { d.remark with writeErrors := d.writeErrors + 1 } ∨ d.record e = { d with readErrors := d.readErrors + 1 } ∨
      d.record e = { d.remark with numTimeouts := d.numTimeouts + 1 } ∨
      d.record e = { d with state := .notInitialised, maxReadCount := 0 } := by
  cases e
  · exact .inl rfl
  · cases hp : d.pending <;> simp [Driver.record, hp]
  · exact .inl rfl
  · exact .inr (.inr (.inl rfl))
  · exact .inr (.inr (.inr rfl))

/-- The slot a request is made for, from its description (R202). -/
theorem lowestDirty_eq_some (d : Driver) (i : WSlot) (h1 : i.index < d.nWrite) (h2 : (d.w.get i).dirty = true)
    (h3 : ∀ j : WSlot, j.index < i.index → (d.w.get j).dirty = false) : d.lowestDirty = some i := by
  have hi := (dirtyActive_iff d i).mpr ⟨h1, h2⟩
  have hj : ∀ j : WSlot, j.index < i.index → d.dirtyActive j = false := fun j hj => by simp [Driver.dirtyActive, h3 j hj]
  unfold Driver.lowestDirty WSlot.all
  have g0 := hj .globalConf
  have g1 := hj .slaveConf
  have g2 := hj .chopperConf
  have g3 := hj .currentConf
  have g4 := hj .pwmConf
  have g5 := hj .pwmThreshold
  have g6 := hj .coolThreshold
  have g7 := hj .coolstepConf
  clear hj h3 h2 h1
  cases i <;> simp [WSlot.index] at g0 g1 g2 g3 g4 g5 g6 g7 <;> simp [List.find?, *]

/-- Re-marking changes the write file only. -/
theorem remark_frame (d : Driver) : d.remark = { d with w := d.remark.w } := by
  rw [remark_eq]
  split <;> rfl

/-- Re-marking can only set a dirty flag (R209, R221). -/
theorem remark_slot (d : Driver) (j : WSlot) :
    d.remark.w.get j = d.w.get j ∨ d.remark.w.get j = { d.w.get j with dirty := true } := by
  rw [remark_eq]
  split
  · simp only [get_set]
    split
    · rename_i h
      subst h
      exact .inr rfl
    · exact .inl rfl
  · exact .inl rfl

/-- The kinds a rejected WRITE can have (R209). -/
theorem judgeWrite_kind (last : Byte) (rx : List Byte) (k : ErrorKind) (h : judgeWrite last rx = some k) :
    k = .echoMismatch ∨ k = .frameCrcMismatch ∨ k = .writeNotVerified := by
  unfold judgeWrite at h
  split at h
  · split_ifs at h <;> cases h <;> simp
  · cases h
    simp

/-- The kind of a rejected READ (R215). -/
theorem judgeRead_kind (reg : RegNum) (rx : List Byte) (k : ErrorKind) (h : judgeRead reg rx = some k) :
    k = .echoMismatch := by
  unfold judgeRead at h
  split at h
  · split_ifs at h
    cases h
    rfl
  · cases h
    rfl

/-! ### Ticks -/

/-- The capture is not empty (R10). -/
theorem captureLen_pos (c : Config) : 0 < captureLen c := by
  have := c.oversample_ge
  unfold captureLen maxReadBytes
  positivity

/-- No `EV_UNIT` is due. -/
theorem raiseDue_stop (c : Config) (n : Nat) (t : Transport) (h : ¬(t.tstate.inTransfer = true ∧ t.timer = 0)) :
    t.raiseDue c n = t := by
  cases n with
  | zero => rfl
  | succ n => rw [Transport.raiseDue, if_neg h]

/-- An `EV_UNIT` is due. -/
theorem raiseDue_go (c : Config) (n : Nat) (t : Transport) (h : t.tstate.inTransfer = true) (h0 : t.timer = 0) :
    t.raiseDue c (n + 1) = (t.unitDone c []).raiseDue c n := by
  rw [Transport.raiseDue, if_pos ⟨h, h0⟩]

/-- A tick outside a transfer. -/
theorem tick_quiet (c : Config) (t : Transport) (lineIn : Level) (hwErr : Bool) (h : t.tstate.inTransfer = false) :
    t.tick c lineIn hwErr = t := by
  unfold Transport.tick
  cases hwErr <;> simp [h, hwError_ignored]

/-- A tick that drives a sample (R174, R175). -/
theorem tick_drive (c : Config) (t : Transport) (lineIn : Level) (h : t.tstate.inTransfer = true) (hr : t.tstate ≠ .reading) :
    t.tick c lineIn false =
      ({ t with
        lineLevel := t.waveLevel c t.driven, driven := t.driven + 1, timer := t.timer - 1 } : Transport).raiseDue c 4 := by
  unfold Transport.tick
  simp [h, hr]

/-- A tick that captures a sample (R176). -/
theorem tick_capture (c : Config) (t : Transport) (lineIn : Level) (hr : t.tstate = .reading) :
    t.tick c lineIn false =
      ({ t with
        samples := t.samples ++ [lineIn], sampleCount := t.sampleCount + 1, timer := t.timer - 1 } : Transport).raiseDue c 4 := by
  unfold Transport.tick
  simp [hr, TState.inTransfer]

/-- A tick in which the engine reports a fault, during a transfer (R170, R324). -/
theorem tick_fault (c : Config) (t : Transport) (lineIn : Level) (h : t.tstate.inTransfer = true) :
    t.tick c lineIn true = t.halt .error := by
  unfold Transport.tick
  simp [hwError_stops t h, Transport.halt, TState.inTransfer]

end Sys2Proof.Machine
end

