-- ==== Sys2Proof/Laws/Engine.lean ====
section
/-! SUPPORT. For each shared operation of the engine, everything it can do: choosing and issuing a request (R202 to R205),
a timeout (R221, R222), the rotation (R252), and the parts of `SPIN` (R258). -/

namespace Sys2Proof.Machine

/-- A request has 12 or 4 bytes (R203, R204). -/
theorem requestBytes_length (c : Config) (d : Driver) :
    (d.requestBytes c).length = if d.lowestDirty.isSome then 12 else 4 := by
  unfold Driver.requestBytes
  split <;> rename_i h <;>
    simp [h, writeTransferBytes, writeReqBytes, bytesBe, ifcntReqBytes, readReqBytes, readTransferBytes]

/-- The `T_START` inside `E_START` is not refused when the Transport is idle (R205). -/
theorem issue_of_idle (c : Config) (t : Transport) (i : Nat) (d : Driver) (h : t.tstate = .idle) :
    t.issue c i (d.requestBytes c) = { t with
      lineSel := i, txBuf := d.requestBytes c ++ t.txBuf.drop (d.requestBytes c).length
      txCount := (d.requestBytes c).length, rxCount := 8
      txQueued := min c.preloadBytes (d.requestBytes c).length, lineDir := .output, lineLevel := true, sampleCount := 0
      rxValid := false, samples := [], tstate := .writing, timer := (c.idleBits + 10) * c.oversample, driven := 0 } := by
  have hl := requestBytes_length c d
  unfold Transport.issue
  rw [start_eq_some _ _ _ _ _ (.inl h) (by split at hl <;> omega) (by split at hl <;> omega) (by decide) (by decide)]
  rfl

/-- Everything `E_START` does to the driver (R202, R204): the dirty flag of the slot it sends, and `pending`. -/
theorem choose_cases (d : Driver) :
    (∃ i, d.lowestDirty = some i ∧
      d.choose = { d with w := d.w.set i { d.w.get i with dirty := false }, pending := .write i }) ∨
    (d.lowestDirty = none ∧ d.choose = { d with pending := .read d.readCursor }) := by
  cases h : d.lowestDirty with
  | some i => exact .inl ⟨i, rfl, by simp [Driver.choose, h, Driver.setDirty]⟩
  | none => exact .inr ⟨rfl, by simp [Driver.choose, h]⟩

/-- `E_START` on a driver that exists (R205). -/
theorem startTransfer_eq (c : Config) (s : State) (i : Nat) (d : Driver) (h : s.drivers[i]? = some d) :
    s.startTransfer c i =
      { s with drivers := s.drivers.set i d.choose, tr := s.tr.issue c i (d.requestBytes c) } := by
  simp only [State.startTransfer, h, updDriver_eq_set _ _ _ _ h]
  rfl

/-- An internal operation on a driver that exists, while the engine runs. -/
theorem onInternal_some (s : State) (i : Nat) (d : Driver) (k : Driver → Host.Outcome State Fault Refusal)
    (hr : s.running = true) (h : s.drivers[i]? = some d) : s.onInternal i k = k d := by
  simp only [State.onInternal, hr, if_true, h]

/-- An internal operation on a driver that does not exist (R22). -/
theorem onInternal_none (s : State) (i : Nat) (k : Driver → Host.Outcome State Fault Refusal)
    (hr : s.running = true) (h : s.nDrivers ≤ i) : s.onInternal i k = .fault (.noSuchDriver i) := by
  simp only [State.onInternal, hr, if_true, List.getElem?_eq_none h]

/-- An internal operation while the engine does not run (R58). -/
theorem onInternal_stopped (s : State) (i : Nat) (k : Driver → Host.Outcome State Fault Refusal)
    (hr : s.running = false) : s.onInternal i k = .fault .unspecifiedRead := by
  simp [State.onInternal, hr]

/-- Everything `E_TIMEOUT` does to the driver (R221, R222). -/
theorem timeOut_eq (d : Driver) :
    d.timeOut = { d with
      numTimeouts := d.numTimeouts + 1, pending := .none
      w := match d.pending with
        | .write i => d.w.set i { d.w.get i with dirty := true }
        | _ => d.w
      state := if 10 < (d.numTimeouts + 1).toNat then .notInitialised else d.state
      maxReadCount := if 10 < (d.numTimeouts + 1).toNat then 0 else d.maxReadCount } := by
  simp only [Driver.timeOut, Driver.record, maxTimeouts, Driver.remark]
  by_cases hk : 10 < (d.numTimeouts + 1).toNat <;>
    cases hp : d.pending <;> simp only [hk, if_true, if_false] <;> rfl

/-- The driver the rotation gives exists and is eligible (R252). -/
theorem eligible_of_nextDriver (s : State) (i : Nat) (h : s.nextDriver = some i) :
    ∃ d, s.drivers[i]? = some d ∧ d.maxReadCount ≠ 0 := by
  have : ∀ n k, s.searchNext n k = some i → ∃ d, s.drivers[i]? = some d ∧ d.maxReadCount ≠ 0 := by
    intro n
    induction n with
    | zero =>
      intro k h
      simp [State.searchNext] at h
    | succ n ih =>
      intro k h
      rw [State.searchNext] at h
      split at h
      · rename_i d hd
        split at h
        · rename_i he
          cases h
          exact ⟨d, hd, (eligible_iff d).mp he⟩
        · exact ih _ h
      · exact ih _ h
  exact this _ _ h

/-- Power-apply does nothing when every driver has power (R258). -/
theorem applyPower_of_powered (c : Config) (s : State)
    (h : ∀ (i : Nat) (d : Driver), s.drivers[i]? = some d → d.state ≠ .noPower) : s.applyPower c = s := by
  have : s.drivers.map (fun d => if d.state = .noPower then d.powerApply c else d) = s.drivers := by
    apply List.ext_getElem?
    intro i
    rw [List.getElem?_map]
    cases hd : s.drivers[i]? with
    | none => rfl
    | some d => simp [h i d hd]
  simp only [State.applyPower, this]

/-- Everything the polling part of `SPIN` can do (R258, R259). -/
theorem poll_cases (c : Config) (now : Word) (s : State) :
    (s.currentDriver = none ∧ s.poll c now = s) ∨
    (∃ i, s.currentDriver = some i ∧ s.tr.tstate = .complete ∧
      ∃ t, s.tr.check c = some t ∧ s.poll c now = ((s.withTr t).finishTransfer c i).retire i) ∨
    (∃ i, s.currentDriver = some i ∧ s.tr.tstate ≠ .complete ∧ c.transferTimeout < (now - s.transferStartTime).toNat ∧
      s.poll c now = (s.timeOutTransfer i).retire i) ∨
    (∃ i, s.currentDriver = some i ∧ s.tr.tstate ≠ .complete ∧ (now - s.transferStartTime).toNat ≤ c.transferTimeout ∧
      s.poll c now = s) := by
  unfold State.poll
  cases hc : s.currentDriver with
  | none => exact .inl ⟨rfl, rfl⟩
  | some i =>
    refine .inr ?_
    by_cases hs : s.tr.tstate = .complete
    · exact .inl ⟨i, rfl, hs, _, check_complete c _ hs, by simp only [check_complete c _ hs]⟩
    · simp only [check_not_complete c _ hs, State.overdue, decide_eq_true_eq]
      by_cases ht : c.transferTimeout < (now - s.transferStartTime).toNat
      · exact .inr (.inl ⟨i, rfl, hs, ht, by rw [if_pos ht]⟩)
      · exact .inr (.inr ⟨i, rfl, hs, by omega, by rw [if_neg ht]⟩)

/-- Everything the starting part of `SPIN` can do (R258). -/
theorem startNext_cases (c : Config) (s : State) (now : Word) :
    ((s.currentDriver ≠ none ∨ s.nextDriver = none) ∧ s.startNext c now = s) ∨
    (s.currentDriver = none ∧ ∃ i d, s.nextDriver = some i ∧ s.drivers[i]? = some d ∧ d.maxReadCount ≠ 0 ∧
      s.startNext c now = { s with
        drivers := s.drivers.set i d.choose, tr := s.tr.issue c i (d.requestBytes c), currentDriver := some i
        transferStartTime := now }) := by
  unfold State.startNext
  cases hc : s.currentDriver with
  | some j => exact .inl ⟨.inl (by simp), rfl⟩
  | none =>
    cases hn : s.nextDriver with
    | none => exact .inl ⟨.inr rfl, rfl⟩
    | some i =>
      obtain ⟨d, hd, hm⟩ := eligible_of_nextDriver s i hn
      refine .inr ⟨rfl, i, d, rfl, hd, hm, ?_⟩
      simp only [startTransfer_eq _ _ _ _ hd]

/-- Everything the response to a WRITE can do to the driver (R208, R209). -/
theorem finishWrite_cases (d : Driver) (i : WSlot) (rx : List Byte) (hp : d.pending = .write i) :
    (judgeWrite d.lastIfCount rx = none ∧
      d.finishWrite rx = { d with lastIfCount := ifcntOf rx, numWrites := d.numWrites + 1 }) ∨
    (judgeWrite d.lastIfCount rx ≠ none ∧
      d.finishWrite rx = { d with
        w := d.w.set i { d.w.get i with dirty := true }, writeErrors := d.writeErrors + 1 }) := by
  unfold Driver.finishWrite
  cases hj : judgeWrite d.lastIfCount rx with
  | none => exact .inl ⟨rfl, rfl⟩
  | some k =>
    refine .inr ⟨by simp, ?_⟩
    rcases judgeWrite_kind _ _ _ hj with rfl | rfl | rfl <;> simp [Driver.record, Driver.remark, hp, Driver.setDirty]

/-- Everything the response to a READ can do to the driver (R213, R215). -/
theorem finishRead_cases (c : Config) (interval : Nat) (rx : List Byte) (k : Nat) (d : Driver) (hp : d.pending = .read k) :
    (judgeRead (d.readSlot c k).regNum rx = none ∧ d.finishRead c interval rx k = d.acceptRead c interval rx k) ∨
    (judgeRead (d.readSlot c k).regNum rx ≠ none ∧
      d.finishRead c interval rx k = { d with readErrors := d.readErrors + 1 }) := by
  unfold Driver.finishRead
  cases hj : judgeRead (d.readSlot c k).regNum rx with
  | none => exact .inl ⟨rfl, rfl⟩
  | some e =>
    refine .inr ⟨by simp, ?_⟩
    rw [judgeRead_kind _ _ _ hj]
    simp [Driver.record, hp]

/-- Everything the bring-up test can do (R244, R246, R247). -/
theorem bringUp_cases (c : Config) (d : Driver) :
    d.bringUp c = d ∨
      (d.state = .initialising ∧ (d.bringUp c = { d with state := .ready } ∨ d.bringUp c = d.widen c)) := by
  unfold Driver.bringUp
  split
  · rename_i h
    refine .inr ⟨((settled_iff d).mp h).1, ?_⟩
    split
    · exact .inr rfl
    · exact .inl rfl
  · exact .inl rfl

end Sys2Proof.Machine
end

