-- ==== Sys2Proof/Laws/PerInstr.lean ====
section
/-! SUPPORT. The statement for all instructions, one lemma per constructor. -/

namespace Sys2Proof.Laws

/-- An instruction is encoded exactly when its row of the opcode table has a bit pattern (R131). -/
def HasForm.Statement (i : Instr) : Prop := (encode i).isSome = i.hasPattern

theorem HasForm.init (n : Word) : HasForm.Statement (.init n) := rfl
theorem HasForm.spin (now : Word) (powered : Bool) : HasForm.Statement (.spin now powered) := rfl
theorem HasForm.shutdown : HasForm.Statement .shutdown := rfl
theorem HasForm.setcur (drv : Byte) (mA : Word) : HasForm.Statement (.setcur drv mA) := rfl
theorem HasForm.setms (drv : Byte) (microsteps : Word) (interpolate : Bool) : HasForm.Statement (.setms drv microsteps interpolate) := rfl
theorem HasForm.getms (drv : Byte) : HasForm.Statement (.getms drv) := rfl
theorem HasForm.setsgt (drv : Byte) (t : Word) : HasForm.Statement (.setsgt drv t) := rfl
theorem HasForm.setsgmin (drv : Byte) (sps : Word) : HasForm.Statement (.setsgmin drv sps) := rfl
theorem HasForm.getlive (drv : Byte) : HasForm.Statement (.getlive drv) := rfl
theorem HasForm.getacc (drv : Byte) (keep : Word) : HasForm.Statement (.getacc drv keep) := rfl
theorem HasForm.setreg (drv : Byte) (name : Word) (v : Word) : HasForm.Statement (.setreg drv name v) := rfl
theorem HasForm.getreg (drv : Byte) (name : Word) : HasForm.Statement (.getreg drv name) := rfl
theorem HasForm.tStart (line : Byte) (writeCount : Word) (readCount : Word) : HasForm.Statement (.tStart line writeCount readCount) := rfl
theorem HasForm.tCheck : HasForm.Statement .tCheck := rfl
theorem HasForm.tAbort : HasForm.Statement .tAbort := rfl
theorem HasForm.encode (byte : Byte) : HasForm.Statement (.encode byte) := rfl
theorem HasForm.decode (expected : Word) : HasForm.Statement (.decode expected) := rfl
theorem HasForm.encodeBuf (buf : List Byte) : HasForm.Statement (.encodeBuf buf) := rfl
theorem HasForm.evUnit (capture : List Level) : HasForm.Statement (.evUnit capture) := rfl
theorem HasForm.evHwErr : HasForm.Statement .evHwErr := rfl
theorem HasForm.eStart (d : Nat) : HasForm.Statement (.eStart d) := rfl
theorem HasForm.eDone (d : Nat) : HasForm.Statement (.eDone d) := rfl
theorem HasForm.eTimeout (d : Nat) : HasForm.Statement (.eTimeout d) := rfl
theorem HasForm.getNext : HasForm.Statement .getNext := rfl
theorem HasForm.frame (b : Byte) : HasForm.Statement (.frame b) := rfl
theorem HasForm.writeReq (regNum : RegNum) (value : Word) (crc : Byte) : HasForm.Statement (.writeReq regNum value crc) := rfl
theorem HasForm.ifcntReq : HasForm.Statement .ifcntReq := rfl
theorem HasForm.ifcntResp (sync : Byte) (addr : Byte) (payloadHi : BitVec 24) (ifcnt : Byte) (crc : Byte) : HasForm.Statement (.ifcntResp sync addr payloadHi ifcnt crc) := rfl
theorem HasForm.readReq (regNum : RegNum) (crc : Byte) : HasForm.Statement (.readReq regNum crc) := rfl
theorem HasForm.readResp (reg : Byte) (value : Word) (crc : Byte) : HasForm.Statement (.readResp reg value crc) := rfl

end Sys2Proof.Laws
end

