-- ==== Sys2Proof/Laws/Quantity.lean ====
section
/-! SUPPORT. The fields inside slot values, bit by bit: current codes, the vsense bit, the microstep fields (R282 to R288). -/

namespace Sys2Proof.Machine

/-- A clamped code is a 5-bit number (R284). -/
theorem clamp_code_range (x : Int) : 0 ≤ clamp x 0 31 ∧ clamp x 0 31 ≤ 31 := by
  unfold clamp; split_ifs <;> omega

/-- A current code as a number (R284). -/
theorem currentCode_toNat (c : Config) (r : SenseRange) (mA : Nat) : (currentCode c r mA).toNat = (clamp (c.csScale r mA) 0 31).toNat := by
  obtain ⟨h1, h2⟩ := clamp_code_range (c.csScale r mA)
  unfold currentCode
  rw [BitVec.toNat_ofInt]; omega

/-- The bits of a current code (R284). -/
theorem currentCode_bit (c : Config) (r : SenseRange) (mA b : Nat) : (currentCode c r mA).getLsbD b = (clamp (c.csScale r mA) 0 31).toNat.testBit b := by
  rw [BitVec.getLsbD, currentCode_toNat]

/-- A current code has 5 bits (R284). -/
theorem currentCode_high_bit (c : Config) (r : SenseRange) (mA b : Nat) (h : 5 ≤ b) :
    (currentCode c r mA).getLsbD b = false := by
  rw [currentCode_bit]
  obtain ⟨h1, h2⟩ := clamp_code_range (c.csScale r mA)
  apply Nat.testBit_lt_two_pow
  calc _ < 2^5 := by omega
    _ ≤ 2^b := Nat.pow_le_pow_right (by norm_num) h

/-- The bits of a 5-bit field mask. -/
theorem ones5_bit (b : Nat) : (31#32).getLsbD b = decide (b < 5) := by
  rw [BitVec.getLsbD, show (31#32).toNat = 2^5-1 from rfl, Nat.testBit_two_pow_sub_one]

/-- The bits of a 4-bit field mask. -/
theorem ones4_bit (b : Nat) : (15#32).getLsbD b = decide (b < 4) := by
  rw [BitVec.getLsbD, show (15#32).toNat = 2^4-1 from rfl, Nat.testBit_two_pow_sub_one]

/-- The bits of a 1-bit field mask. -/
theorem ones1_bit (b : Nat) : (1#32).getLsbD b = decide (b < 1) := by
  rw [BitVec.getLsbD, show (1#32).toNat = 2^1-1 from rfl, Nat.testBit_two_pow_sub_one]

/-- Every bit of the current register after the codes are replaced (R282, R284). -/
theorem withCurrentCodes_bit (c : Config) (v : Word) (r : SenseRange) (i h b : Nat) (hb : b < 32) :
   (withCurrentCodes c v (currentCode c r i) (currentCode c r h)).getLsbD b =
        if c.irunShift ≤ b ∧ b < c.irunShift + 5 then
          (clamp (c.csScale r i) 0 31).toNat.testBit (b - c.irunShift)
        else if c.iholdShift ≤ b ∧ b < c.iholdShift + 5 then
          (clamp (c.csScale r h) 0 31).toNat.testBit (b - c.iholdShift)
        else v.getLsbD b := by
  obtain ⟨f1, f2, f3⟩ := c.currentFields
  unfold withCurrentCodes
  simp only [BitVec.getLsbD_or, BitVec.getLsbD_and, BitVec.getLsbD_not, BitVec.getLsbD_shiftLeft, ones5_bit, hb,
    decide_true, Bool.true_and]
  split_ifs with a1 a2
  · rw [currentCode_bit]
    have e1 : ¬ b < c.irunShift := by omega
    have e2 : b - c.irunShift < 5 := by omega
    by_cases e3 : b < c.iholdShift
    · simp [e1, e2, e3]
    · rw [currentCode_high_bit c r h _ (by omega)]; simp [e1, e2]
  · rw [currentCode_bit c r h]
    have e1 : ¬ b < c.iholdShift := by omega
    have e2 : b - c.iholdShift < 5 := by omega
    by_cases e3 : b < c.irunShift
    · simp [e1, e2, e3]
    · rw [currentCode_high_bit c r i _ (by omega)]; simp [e1, e2]
  · by_cases e3 : b < c.irunShift <;> by_cases e4 : b < c.iholdShift
    · simp [e3, e4]
    · rw [currentCode_high_bit c r h _ (by omega)]; simp [e3, e4]; omega
    · rw [currentCode_high_bit c r i _ (by omega)]; simp [e3, e4]; omega
    · have n1 : ¬ b - c.irunShift < 5 := by omega
      have n2 : ¬ b - c.iholdShift < 5 := by omega
      rw [currentCode_high_bit c r h _ (by omega), currentCode_high_bit c r i _ (by omega)]; simp [e3, e4, n1, n2]

/-- Every bit of the chopper register after its vsense bit is replaced (R282). -/
theorem withVsense_bit (c : Config) (v : Word) (x : Bool) (b : Nat) (hb : b < 32) :
    (withVsense c v x).getLsbD b = if b = c.vsenseBit then x else v.getLsbD b := by
  unfold withVsense
  simp only [BitVec.getLsbD_or, BitVec.getLsbD_and, BitVec.getLsbD_not, BitVec.getLsbD_shiftLeft, ones1_bit, hb,
    decide_true, Bool.true_and]
  by_cases a1 : b = c.vsenseBit
  · subst a1; cases x <;> simp
  · rw [if_neg a1]
    by_cases e : b < c.vsenseBit
    · simp [e]
    · have : ¬ (b - c.vsenseBit < 1) := by omega
      cases x <;> simp [e, this]; omega

/-- A valid microstep count (R287). -/
theorem microstepShiftOf_pow (m : Word) (k : Fin 9) (h : m.toNat = 2^k.val) : microstepShiftOf m = some k := by
  unfold microstepShiftOf
  rw [h]; clear h; revert k; decide

/-- Every other microstep count (R287, R288). -/
theorem microstepShiftOf_other (m : Word) (h : ∀ k : Fin 9, m.toNat ≠ 2^k.val) : microstepShiftOf m = none := by
  unfold microstepShiftOf
  have := h 0; have := h 1; have := h 2; have := h 3; have := h 4; have := h 5; have := h 6; have := h 7; have := h 8
  split <;> simp_all

/-- Every bit of the chopper register after its microstep fields are replaced (R287, R288). -/
theorem withMicrosteps_bit (c : Config) (v : Word) (k : Fin 9) (x : Bool) (b : Nat) (hb : b < 32) :
    (withMicrosteps c v k x).getLsbD b =
          if c.mresShift ≤ b ∧ b < c.mresShift + 4 then (8 - k.val).testBit (b - c.mresShift)
          else if b = c.intpolBit then x else v.getLsbD b := by
  obtain ⟨_, f2, f3, _, _, f6⟩ := c.chopperFields
  have hk : ∀ j, (BitVec.ofNat 32 (8 - k.val)).getLsbD j = (8 - k.val).testBit j := by
    intro j
    rw [BitVec.getLsbD, BitVec.toNat_ofNat, Nat.mod_eq_of_lt (by omega)]
  have hk2 : ∀ j, 4 ≤ j → (8 - k.val).testBit j = false := by
    intro j hj
    apply Nat.testBit_lt_two_pow
    calc _ < 2^4 := by omega
      _ ≤ 2^j := Nat.pow_le_pow_right (by norm_num) hj
  unfold withMicrosteps
  simp only [BitVec.getLsbD_or, BitVec.getLsbD_and, BitVec.getLsbD_not, BitVec.getLsbD_shiftLeft, ones4_bit,
    ones1_bit, hb, decide_true, Bool.true_and, hk]
  by_cases a1 : c.mresShift ≤ b ∧ b < c.mresShift + 4
  · rw [if_pos a1]
    have e1 : ¬ b < c.mresShift := by omega
    have e2 : b - c.mresShift < 4 := by omega
    by_cases e3 : b < c.intpolBit
    · simp [e1, e2, e3]
    · have : ¬ (b - c.intpolBit < 1) := by omega
      cases x <;> simp [e1, e2, e3, this]; omega
  · rw [if_neg a1]
    by_cases a2 : b = c.intpolBit
    · rw [if_pos a2]
      have e3 : ¬ b < c.intpolBit := by omega
      have e4 : b - c.intpolBit < 1 := by omega
      by_cases e1 : b < c.mresShift
      · cases x <;> simp [e1, e3, e4]; omega
      · rw [hk2 (b - c.mresShift) (by omega)]
        cases x <;> simp [e1, e3, e4]; omega
    · rw [if_neg a2]
      by_cases e1 : b < c.mresShift <;> by_cases e3 : b < c.intpolBit
      · cases x <;> simp [e1, e3]
      · have : ¬ (b - c.intpolBit < 1) := by omega
        cases x <;> simp [e1, e3, this]; omega
      · have : ¬ (b - c.mresShift < 4) := by omega
        rw [hk2 (b - c.mresShift) (by omega)]
        cases x <;> simp [e1, e3, this]
      · have : ¬ (b - c.mresShift < 4) := by omega
        have : ¬ (b - c.intpolBit < 1) := by omega
        rw [hk2 (b - c.mresShift) (by omega)]
        cases x <;> simp [*]; omega

end Sys2Proof.Machine
end

