-- ==== Sys2Proof/Laws/Step.lean ====
section
/-! SUPPORT. What one step can do: which instructions the decoder gives, and every outcome of a step that goes on. -/

namespace Sys2Proof

/-- The decoder gives no operation that has no bit pattern (R131). -/
theorem decode_hasPattern (x : Wire) (i : Instr) (h : decode x = .ok i) : i.hasPattern = true := by
  cases x with
  | cmd w =>
    simp only [decode, decodeCmd, decodeFields] at h
    split at h <;> cases h <;> rfl
  | frame f =>
    simp only [decode, decodeFrame] at h
    split at h <;> cases h
    rfl
  | datagram bytes =>
    simp only [decode] at h
    unfold decodeDatagram at h
    split at h
    · split at h
      · split at h <;> cases h <;> rfl
      · cases h
    · split at h
      · cases h; rfl
      · split at h
        · cases h; rfl
        · split at h <;> cases h
          rfl
    · cases h

namespace Machine

/-- Everything a step that goes on can do: nothing (no arrival), an instruction with a bit pattern, one of the two events, a
refusal, a malformed reply, a tick, or new data on the input ports. `q` is what is still to arrive. -/
theorem step_cases (s t : State) (h : step s = .next t) :
    t = s ∨ ∃ q : List Input,
      (∃ i : Instr, s.fetch = .run i { s with inQ := q } ∧
        (i.hasPattern = true ∨ (∃ cap, i = .evUnit cap) ∨ i = .evHwErr) ∧ exec i { s with inQ := q } = .next t) ∨
      t = ({ s with inQ := q } : State).refuse ∨ (∃ bytes, t = ({ s with inQ := q } : State).receiveReply cfg bytes) ∨
      (∃ lineIn hwErr, t = { s with inQ := q, tr := s.tr.tick cfg lineIn hwErr }) ∨ ∃ p, t = { s with inQ := q, ports := p } := by
  unfold step at h
  cases hq : s.inQ with
  | nil =>
    simp only [State.fetch, hq] at h
    exact .inl (Host.Outcome.next.inj h).symm
  | cons a rest =>
    refine .inr ⟨rest, ?_⟩
    cases a with
    | word nbits w =>
      have hf : s.fetch = ({ s with inQ := rest } : State).fetchWord nbits w := by simp only [State.fetch, hq]
      rw [hf] at h ⊢
      unfold State.fetchWord at h ⊢
      cases hx : wireOf nbits w with
      | none => simp only [hx] at h; cases h
      | some x =>
        simp only [hx] at h ⊢
        cases hd : decode x with
        | ok i =>
          simp only [hd] at h
          exact .inl ⟨i, rfl, .inl (decode_hasPattern x i hd), h⟩
        | error e =>
          simp only [hd, State.rejectWord] at h
          cases x with
          | cmd w => exact .inr (.inl (Host.Outcome.next.inj h).symm)
          | frame f => cases h
          | datagram bytes =>
            by_cases hl : bytes.length = 8
            · simp only [hl, if_true] at h
              exact .inr (.inr (.inl ⟨bytes, (Host.Outcome.next.inj h).symm⟩))
            · simp only [hl, if_false] at h
              cases h
    | evUnit cap =>
      have hf : s.fetch = .run (.evUnit cap) { s with inQ := rest } := by simp only [State.fetch, hq]
      rw [hf] at h ⊢
      exact .inl ⟨_, rfl, .inr (.inl ⟨cap, rfl⟩), h⟩
    | evHwErr =>
      have hf : s.fetch = .run .evHwErr { s with inQ := rest } := by simp only [State.fetch, hq]
      rw [hf] at h ⊢
      exact .inl ⟨_, rfl, .inr (.inr rfl), h⟩
    | tick lineIn hwErr =>
      have hf : s.fetch = .settled { s with inQ := rest, tr := s.tr.tick cfg lineIn hwErr } := by simp only [State.fetch, hq]
      rw [hf] at h
      exact .inr (.inr (.inr (.inl ⟨lineIn, hwErr, (Host.Outcome.next.inj h).symm⟩)))
    | ports p =>
      have hf : s.fetch = .settled { s with inQ := rest, ports := p } := by simp only [State.fetch, hq]
      rw [hf] at h
      exact .inr (.inr (.inr (.inr ⟨p, (Host.Outcome.next.inj h).symm⟩)))

end Machine

end Sys2Proof
end

