-- ==== Sys2Proof/Laws/Wire.lean ====
section
/-! SUPPORT. What a request datagram that arrives as a word does, said once (R72, R112, R117, R163). -/

namespace Sys2Proof.Machine

/-- The free line is one the platform has (assumption 9). -/
theorem someLine_lt (c : Config) (s : State) : s.someLine c < c.platformLines := by
  have h1 := c.drivers_ge
  have h2 := c.lines_ge
  exact Nat.mod_lt _ (by omega)

/-- A request issued while a transfer may start (R163). -/
theorem issueDirect_eq (c : Config) (s : State) (buf : List Byte)
    (hs : s.tr.tstate = .idle ∨ s.tr.tstate = .complete ∨ s.tr.tstate = .error) (hb : 1 ≤ buf.length)
    (hb' : buf.length ≤ 12) :
    s.issueDirect c buf = { s with
      tr := { s.tr with
        lineSel := s.someLine c, txBuf := buf ++ s.tr.txBuf.drop buf.length, txCount := buf.length, rxCount := 8
        txQueued := min c.preloadBytes buf.length, lineDir := .output, lineLevel := true, sampleCount := 0
        rxValid := false, samples := [], tstate := .writing, timer := (c.idleBits + 10) * c.oversample, driven := 0
        draws := s.tr.draws + 1 }
      reply := { ok := true, res := 0, rdata := [], sampleOut := [] } } := by
  unfold State.issueDirect
  rw [show maxReadBytes = 8 from rfl, start_eq_some _ _ _ _ _ hs hb hb' (by decide) (by decide)]
  rfl

/-- Everything issuing a request can do: refuse, or start a transfer on some line of the platform. -/
theorem issueDirect_cases (c : Config) (s : State) (buf : List Byte) :
    s.issueDirect c buf = s.refuse ∨
      ∃ t, s.tr.start c (s.someLine c) buf 8 = some t ∧
        s.issueDirect c buf = (s.withTr { t with draws := t.draws + 1 }).answer true 0 := by
  unfold State.issueDirect
  rw [show maxReadBytes = 8 from rfl]
  cases h : s.tr.start c (s.someLine c) buf 8 with
  | none => exact .inl rfl
  | some t => exact .inr ⟨t, rfl, rfl⟩

/-- The registers the block writes (R203). -/
theorem writesReg_iff (c : Config) (r : RegNum) : writesReg c r = true ↔ ∃ i, c.wreg i = r := by
  simp only [writesReg, List.any_eq_true, beq_iff_eq]
  exact ⟨fun ⟨i, _, h⟩ => ⟨i, h⟩, fun ⟨i, h⟩ => ⟨i, mem_all i, h⟩⟩

/-- The registers the block reads (R204). -/
theorem readsReg_iff (c : Config) (r : RegNum) :
    readsReg c r = true ↔ r = 0x02 ∨ ∃ k, k < c.nReadExt ∧ c.rreg k = r := by
  simp [readsReg, regIfcnt, List.any_eq_true]

/-- The interface counter is never written (R72). -/
theorem writesReg_ifcnt (c : Config) : writesReg c regIfcnt = false := by
  rw [← Bool.not_eq_true, writesReg_iff]
  rintro ⟨i, h⟩
  exact c.wreg_ne_ifcnt i h

/-- A register the block writes is never read back (R32). -/
theorem readsReg_of_writesReg (c : Config) (r : RegNum) (h : writesReg c r = true) : readsReg c r = false := by
  obtain ⟨i, rfl⟩ := (writesReg_iff c r).mp h
  rw [← Bool.not_eq_true, readsReg_iff]
  rintro (h | ⟨k, hk, h⟩)
  · exact c.wreg_ne_ifcnt i h
  · exact c.wreg_ne_rreg i k hk h.symm

/-- Everything a `WRITE_REQ` can do (R117). -/
theorem writeReqCmd_cases (c : Config) (r : RegNum) (v : Word) (crc : Byte) (s : State) :
    s.writeReqCmd c r v crc = s.refuse ∨ s.writeReqCmd c r v crc = s.issueDirect c (writeTransferBytes r v crc) := by
  unfold State.writeReqCmd
  split
  · exact .inr rfl
  · exact .inl rfl

/-- Everything a `READ_REQ` can do (R117). -/
theorem readReqCmd_cases (c : Config) (r : RegNum) (crc : Byte) (s : State) :
    s.readReqCmd c r crc = s.refuse ∨ s.readReqCmd c r crc = s.issueDirect c (readReqBytes r crc) := by
  unfold State.readReqCmd
  split
  · exact .inr rfl
  · exact .inl rfl

end Sys2Proof.Machine
end

