-- ==== Sys2Proof/Tests/Slice0.lean ====
section
/-! SUPPORT. The model's own tests. Expected values come from `95_test_vectors.md` (section named at each test), which computes
them from the rules, or from the encoding tables of R100, R107 to R111, R125 to R127. Meanings that depend on a parameter are
tested at the reference assignment `cfgRef` of its section 1. Last come the witnesses: for each statement with hypotheses, values
that meet them. -/

-- One test after the other: elaborated all at once, their threads together ask for more memory than a check allows.
set_option Elab.async false

namespace Sys2Proof.Tests

open Sys2Proof Sys2Proof.Machine

/-! ### Helpers -/

/-- Runs of equal levels, the spec's run notation (R12). -/
def runs (l : List (Nat × Level)) : List Level := l.flatMap fun p => List.replicate p.1 p.2

/-- `Encode(A5)` at 4 samples a bit, in run notation (section 4.1). -/
def wave165 : List Level :=
  runs [(4, false), (4, true), (4, false), (4, true), (8, false), (4, true), (4, false), (8, true)]

/-- A driver as `INIT` makes it under the reference assignment. -/
def refDriver : Driver := initDriver cfgRef 0

/-- A running engine with one driver and no transfer in flight. -/
def oneDriver (d : Driver) : State := { State.reset with running := true, drivers := [d] }

/-- The Transport while it writes a request on line 0. -/
def trWriting : Transport := { Transport.reset with tstate := .writing, txCount := 12, rxCount := 8, txQueued := 1 }

/-- The Transport with a complete capture. -/
def trComplete : Transport := { trWriting with tstate := .complete, txQueued := 12 }

/-- The Transport after `T_CHECK` has delivered a reply that did not decode. -/
def trDelivered : Transport := { trComplete with tstate := .idle, rxValid := true }

/-- A running engine whose only driver has a transfer in flight. -/
def inFlight (d : Driver) : State := { oneDriver d with currentDriver := some 0, tr := trWriting }

/-- A state with a Transport state and nothing else. -/
def trState (x : TState) : State := { State.reset with tr := { trWriting with tstate := x } }

/-! ### Well-formedness: each check refuses a term -/

theorem test_wf_encodeBuf : (Instr.encodeBuf (List.replicate 13 0)).wf = false := by decide
theorem test_wf_encodeBuf_ok : (Instr.encodeBuf (List.replicate 12 0)).wf = true := by decide
theorem test_wf_writeReq_crc : (Instr.writeReq 0x10 0x00001F0F 0xB7).wf = false := by decide +kernel
theorem test_wf_writeReq_ok : (Instr.writeReq 0x10 0x00001F0F 0xB6).wf = true := by decide +kernel
theorem test_wf_readReq_register : (Instr.readReq 0x02 0xCE).wf = false := by decide +kernel
theorem test_wf_readReq_crc : (Instr.readReq 0x06 0xD3).wf = false := by decide +kernel
theorem test_wf_readReq_ok : (Instr.readReq 0x06 0xD2).wf = true := by decide +kernel
theorem test_wf_readResp_bit7 : (Instr.readResp 0x86 0 0).wf = false := by decide
theorem test_wf_readResp_register : (Instr.readResp 0x02 0 0).wf = false := by decide
theorem test_wf_readResp_ok : (Instr.readResp 0x06 0x21000040 0x51).wf = true := by decide

/-! ### Decoding: every constructor with a pattern, from a word written out from the encoding tables (section 9) -/

/-- `INIT 2`, bit by bit: `op ++ drv ++ a ++ b` (R125). -/
theorem test_decode_init :
    decode (.cmd (0b00000001#8 ++ 0b00000000#8 ++ 0b00000000000000000000000000000010#32 ++ 0#32)) = .ok (.init 2) := by decide
theorem test_decode_spin : decode (.cmd 0x02000000000B00000001#80) = .ok (.spin 11 true) := by decide
theorem test_decode_spin_off : decode (.cmd 0x02000000000400000000#80) = .ok (.spin 4 false) := by decide
theorem test_decode_shutdown : decode (.cmd 0x03000000000000000000#80) = .ok .shutdown := by decide
theorem test_decode_setcur : decode (.cmd 0x1001000003E900000000#80) = .ok (.setcur 1 1001) := by decide
theorem test_decode_setms : decode (.cmd 0x11000000001000000001#80) = .ok (.setms 0 16 true) := by decide
theorem test_decode_getms : decode (.cmd 0x12000000000000000000#80) = .ok (.getms 0) := by decide
theorem test_decode_setsgt : decode (.cmd 0x1300FFFFFFC000000000#80) = .ok (.setsgt 0 (BitVec.ofInt 32 (-64))) := by decide
theorem test_decode_setsgmin : decode (.cmd 0x1400000000C800000000#80) = .ok (.setsgmin 0 200) := by decide
theorem test_decode_getlive : decode (.cmd 0x15000000000000000000#80) = .ok (.getlive 0) := by decide
theorem test_decode_getacc : decode (.cmd 0x1600000000C000000000#80) = .ok (.getacc 0 0xC0) := by decide
theorem test_decode_setreg : decode (.cmd 0x170000000004C10D0024#80) = .ok (.setreg 0 0x04 0xC10D0024) := by decide
theorem test_decode_getreg : decode (.cmd 0x18000000002600000000#80) = .ok (.getreg 0 0x26) := by decide
theorem test_decode_tStart : decode (.cmd 0x20000000000C00000008#80) = .ok (.tStart 0 12 8) := by decide
theorem test_decode_tCheck : decode (.cmd 0x21000000000000000000#80) = .ok .tCheck := by decide
theorem test_decode_tAbort : decode (.cmd 0x22000000000000000000#80) = .ok .tAbort := by decide
theorem test_decode_encode : decode (.cmd 0x3000000000A500000000#80) = .ok (.encode 0xA5) := by decide
theorem test_decode_decode : decode (.cmd 0x31000000000800000000#80) = .ok (.decode 8) := by decide
theorem test_decode_reserved : decode (.cmd 0x40000000000000000000#80) = .error (.reservedOp 0x40) := by decide
/-- The frame of `A5`: start bit 0 in bit 0, the data, stop bit 1 in bit 9 (R100). -/
theorem test_decode_frame : decode (.frame 0b1101001010#10) = .ok (.frame 0xA5) := by decide
theorem test_decode_frame_stop : decode (.frame 0b0101001010#10) = .error .noFrame := by decide
/-- `WRITE_REQ` for register `0x10`: bit 7 of byte 2 set (R107). -/
theorem test_decode_writeReq :
    decode (.datagram [0b00000101, 0b00000000, 0b10010000, 0x00, 0x00, 0b00011111, 0b00001111, 0b10110110])
      = .ok (.writeReq 0x10 0x00001F0F 0xB6) := by decide
theorem test_decode_ifcntReq : decode (.datagram [0x05, 0x00, 0x02, 0xCE]) = .ok .ifcntReq := by decide
theorem test_decode_ifcntResp :
    decode (.datagram [0x05, 0x00, 0x02, 0x00, 0x00, 0x00, 0x04, 0x72]) = .ok (.ifcntResp 0x05 0x00 0 0x04 0x72) := by decide
/-- `READ_REQ` for register `0x06`: bit 7 of byte 2 clear (R110). -/
theorem test_decode_readReq :
    decode (.datagram [0b00000101, 0b00000000, 0b00000110, 0b11010010]) = .ok (.readReq 0x06 0xD2) := by decide
theorem test_decode_readResp :
    decode (.datagram [0x05, 0xFF, 0x06, 0x21, 0x00, 0x00, 0x40, 0x51]) = .ok (.readResp 0x06 0x21000040 0x51) := by decide
theorem test_decode_length : decode (.datagram [0x05, 0x00, 0x02]) = .error (.badLength 3) := by decide

/-! ### CRC and codec (sections 3.1, 4.1 to 4.3) -/

theorem test_crc_check_string :
    crc8 [0x31, 0x32, 0x33, 0x34, 0x35, 0x36, 0x37, 0x38, 0x39] = 0xF4 := by decide +kernel
theorem test_crc_one_byte : crc8 [0x05] = 0x1B := by decide +kernel
theorem test_encode : encodeByte 4 0xA5 = wave165 := by decide
theorem test_encodeBuf : encodeBytes 4 [0x05, 0x00] =
    runs [(4, false), (4, true), (4, false), (4, true), (20, false), (4, true), (36, false), (4, true)] := by decide
/-- T2 and T4: idle samples in front, and two bytes with gaps where three are asked for. -/
theorem test_decode_captures :
    decodeSamples 4 (List.replicate 6 true ++ wave165) 1 = [0xA5] ∧
      decodeSamples 4 (runs [(3, true), (4, false), (4, true), (4, false), (4, true), (20, false), (11, true), (8, false),
        (4, true), (8, false), (4, true), (4, false), (17, true)]) 3 = [0x05, 0xD2] := by decide +kernel
/-- Section 4.3: a low stop bit, `Encode(05)` cut to 39 and to 38 samples, and one sampling point inverted. -/
theorem test_decode_corners :
    decodeSamples 4 (runs [(4, false), (4, true), (4, false), (4, true), (24, false), (8, true)]) 1 = [] ∧
      decodeSamples 4 (runs [(4, false), (4, true), (4, false), (4, true), (20, false), (3, true)]) 1 = [0x05] ∧
      decodeSamples 4 (runs [(4, false), (4, true), (4, false), (4, true), (20, false), (2, true)]) 1 = [] ∧
      decodeSamples 4 (runs [(4, false), (4, true), (2, false), (1, true), (1, false), (4, true), (8, false), (4, true),
        (4, false), (8, true)]) 1 = [0xA7] := by decide +kernel

/-! ### Transport (sections 5.1, 5.2, 5.4) -/

/-- 8 events and 516 ticks for a READ, 16 and 836 for a WRITE. -/
theorem test_transfer_lengths : transferEvents cfgRef 4 = 8 ∧ transferTicks cfgRef 4 = 516 ∧ transferEvents cfgRef 12 = 16 ∧
    transferTicks cfgRef 12 = 836 := by decide
theorem test_tStart_counts :
    ((Transport.reset.start cfgRef 0 [0x05, 0x00, 0x06, 0xD2] 8).map fun t => (t.tstate, t.txCount, t.rxCount, t.txQueued))
      = some (.writing, 4, 8, 1) := by decide
theorem test_tStart_nine_bytes_to_read : Transport.reset.start cfgRef 0 [0x05, 0x00, 0x06, 0xD2] 9 = none := by decide
theorem test_evUnit_queues : (trWriting.unitDone cfgRef []).txQueued = 2 := by decide
theorem test_evUnit_switches :
    ({ trWriting with tstate := .readSync2 }.unitDone cfgRef []).lineDir = .input := by decide
theorem test_evHwErr : ({ trWriting with tstate := .delay }.hwError).tstate = .error := by decide
theorem test_tAbort : trWriting.abort.tstate = .idle := by decide
/-- `T_CHECK` on the capture of a one-byte reply. -/
theorem test_tCheck :
    (Transport.check cfgRef { trComplete with samples := List.replicate 4 true ++ wave165, rxCount := 1 }).map
      (fun t => (t.tstate, t.rxBuf)) = some (.idle, [0xA5]) := by decide +kernel
theorem test_tCheck_false : trWriting.check cfgRef = none := by decide

/-! ### Engine (sections 6.2 to 6.5) -/

/-- `E_START`: the bytes of write slot 3 of P7, and the lowest dirty slot first. -/
theorem test_eStart_write :
    Driver.requestBytes cfgRef { refDriver with w := (refDriver.updateRegister .currentConf 0x0000190C).w }
      = [0x05, 0x00, 0x90, 0x00, 0x00, 0x19, 0x0C, 0xC1, 0x05, 0x00, 0x02, 0xCE] := by decide +kernel
theorem test_eStart_read : refDriver.requestBytes cfgRef = [0x05, 0x00, 0x06, 0xD2] := by decide +kernel
/-- Section 6.2: accepted, stale counter, damaged payload, wrong register. -/
theorem test_eDone_write :
    judgeWrite 0x03 [0x05, 0xFF, 0x02, 0x00, 0x00, 0x00, 0x04, 0xDD] = none ∧
      judgeWrite 0x03 [0x05, 0x00, 0x02, 0x00, 0x00, 0x00, 0x03, 0x67] = some .writeNotVerified ∧
      judgeWrite 0x03 [0x05, 0x00, 0x02, 0x00, 0x00, 0x01, 0x04, 0x72] = some .frameCrcMismatch ∧
      judgeWrite 0x03 [0x05, 0x00, 0x6F, 0x00, 0x00, 0x00, 0x04, 0x2A] = some .echoMismatch := by decide +kernel
/-- Section 6.3: the CRC byte is not tested, the address is. -/
theorem test_eDone_read :
    judgeRead 0x6F [0x05, 0xFF, 0x6F, 0x00, 0x00, 0x00, 0xC0, 0x00] = none ∧
      judgeRead 0x6F [0x05, 0x00, 0x6F, 0x00, 0x00, 0x00, 0xC0, 0x78] = some .echoMismatch := by decide
/-- Section 6.4: the filter at 499 and 500 mA, and at standstill. -/
theorem test_filter : plausible cfgRef 0 499 1 0xC0 = 0 ∧ plausible cfgRef 0 500 1 0xC0 = 0xC0 ∧
    plausible cfgRef 1000000001 1000 1 0xC0 = 0 ∧ plausible cfgRef 0 1000 1 0x80000040 = 0x80000000 ∧
    plausible cfgRef 0 0 0 0xC0 = 0xC0 := by decide
/-- The 11th timeout makes a driver absent, the 10th does not. -/
theorem test_eTimeout :
    ({ refDriver with state := .ready, numTimeouts := 10, maxReadCount := 2 }.timeOut).state = .notInitialised ∧
      ({ refDriver with state := .ready, numTimeouts := 9, maxReadCount := 2 }.timeOut).state = .ready := by decide +kernel
theorem test_getNext :
    ({ State.reset with
      drivers := [{ refDriver with maxReadCount := 2 }, refDriver, { refDriver with maxReadCount := 2 }] }).nextDriver
      = some 2 := by decide +kernel
theorem test_getNext_none : (oneDriver refDriver).nextDriver = none := by decide +kernel

/-! ### INIT, SPIN, SHUTDOWN (programs P3, P6, P8) -/

/-- `INIT 2`, and the CRC of slot 8 it precomputes (section 3.3). -/
theorem test_init :
    ((State.reset.initCmd cfgRef 2).running, (State.reset.initCmd cfgRef 2).lastServiced,
      refDriver.w.stallThreshold.crc) = (true, 1, 0xF5) := by decide +kernel
theorem test_init_nine : State.reset.initCmd cfgRef 9 = State.reset.refuse := by decide +kernel
/-- The first powered `SPIN` starts the write of slot 0. -/
theorem test_spin_first :
    (((oneDriver refDriver).spinCmd cfgRef 0 true).currentDriver,
      (((oneDriver refDriver).spinCmd cfgRef 0 true).tr.txBuf.take 8)) =
      (some 0, [0x05, 0x00, 0x80, 0x00, 0x00, 0x00, 0x00, 0x3D]) := by decide +kernel
/-- P6: 10 ticks are not overdue, 11 are. -/
theorem test_spin_timeout :
    (inFlight refDriver).overdue cfgRef 10 = false ∧ (inFlight refDriver).overdue cfgRef 11 = true := by decide
theorem test_shutdown : (inFlight refDriver).shutDown.tr.tstate = .idle ∧ (inFlight refDriver).shutDown.running = false := by
  decide

/-! ### Quantities (sections 7.1 to 7.4) -/

/-- `SETCUR 1000`: both slots, and the answer. -/
theorem test_setcur_at_boundary :
    ((refDriver.setCurrent cfgRef 1000).1.w.currentConf.value, (refDriver.setCurrent cfgRef 1000).1.w.chopperConf.value,
      (refDriver.setCurrent cfgRef 1000).2) = (0x00001F0F, 0x00020000, 1000) := by decide +kernel
/-- `SETCUR 1001`: the chopper slot is not touched. -/
theorem test_setcur_above_boundary :
    ((refDriver.setCurrent cfgRef 1001).1.w.currentConf.value, (refDriver.setCurrent cfgRef 1001).1.w.chopperConf.dirty,
      (refDriver.setCurrent cfgRef 1001).2) = (0x00000F07, false, 1001) := by decide +kernel
theorem test_setms :
    ((refDriver.setMicrosteps cfgRef 64 true).map fun x => x.1.w.chopperConf.value) = some 0x12000000 := by decide +kernel
theorem test_setms_refused : refDriver.setMicrosteps cfgRef 512 false = none := by decide
theorem test_getms : microstepAnswer refDriver.microstepShift refDriver.interpolate = 0x00010010 := by decide
theorem test_setsgt : (refDriver.setStall cfgRef (-64)).2 = 0x40 ∧ (refDriver.setStall cfgRef 200).2 = 0xFF := by decide +kernel
theorem test_setsgmin : (refDriver.setStallMin cfgRef 200).2 = 234 ∧ (refDriver.setStallMin cfgRef 0).2 = 46875 := by
  decide +kernel
/-- Section 6.4: the latch keeps the bits of the mask. -/
theorem test_getacc :
    (({ refDriver with r := refDriver.r.set 1 { regNum := 0x6F, last := 0, accum := 0xC1 } }.takeAccum cfgRef 0xC0).2,
      (({ refDriver with r := refDriver.r.set 1 { regNum := 0x6F, last := 0, accum := 0xC1 } }.takeAccum cfgRef 0xC0).1.readSlot
        cfgRef 1).accum) = (0xC1, 0xC0) := by decide +kernel
theorem test_setreg :
    ((refDriver.setRaw cfgRef 0x04 0xC10D0024).map fun x => (x.1.w.pwmConf.value, x.1.w.pwmConf.dirty)) =
      some (0xC10D0024, true) := by decide +kernel
theorem test_setreg_refused : refDriver.setRaw cfgRef 0x09 0 = none := by decide
theorem test_getreg_state : refDriver.getRaw cfgRef 0x26 = some 0 := by decide
theorem test_getreg_refused : refDriver.getRaw cfgRef 0x30 = none := by decide

/-! ### Steps from reset (program P8, P1) -/

theorem test_step_spin_refused :
    step (State.reset.withFetchWord 80 0x02000000000000000001) = .next State.reset.refuse := by rfl
theorem test_step_reserved : step (State.reset.withFetchWord 80 0x40000000000000000000) = .next State.reset.refuse := by rfl
theorem test_step_encode :
    step (State.reset.withFetchWord 80 0x3000000000A500000000) = .next (State.reset.deliver (encodeByte cfg.oversample 0xA5)) := by
  rfl
theorem test_step_readReq :
    step (State.reset.withFetchWord 32 0x050006D2) = exec (.readReq 0x06 0xD2) State.reset := by rfl
theorem test_step_frame : step (State.reset.withFetchWord 16 0x34A) = exec (.frame 0xA5) State.reset := by rfl
/-- R72: the interface counter is read, never written. -/
theorem test_writeReq_ifcnt : State.reset.writeReqCmd cfgRef 0x02 0 0 = State.reset.refuse := by decide +kernel
/-- R22, R58: from reset `GETNEXT` reads what the spec leaves unspecified. -/
theorem test_getNext_stopped : execGetNext State.reset = .fault .unspecifiedRead := by rfl
theorem test_step_no_form : step (State.reset.withFetchWord 16 0x14A) = .refused (.noSuchForm 16 0x14A) := by rfl
theorem test_tick_first : (({ trWriting with timer := 48 }).tick cfgRef true false).driven = 1 := by decide

/-! ### Witnesses: the codec, the encodings -/

theorem witness_EncodeIsTheExpandedFrame : 9 < 10 ∧ 3 < 4 := by decide
theorem witness_CodecRoundTrip : 2 ≤ 2 ∧ [(3, 0xA5#8), (0, 0x05#8)].length = 2 := by decide
theorem witness_CodecOperationsAnswer : State.reset.running = false := rfl
theorem witness_LowStopBitEndsDecoding : 2 ≤ 4 ∧ [0x05#8].length = 1 := by decide
theorem witness_CrcDetectsBitFlips : 2 < [0x05#8, 0x00, 0x06].length ∧ 7 < 8 := by decide
theorem witness_DecodeEncodeAgree : (Instr.readReq 0x06 0xD2).hasPattern = true ∧ (Instr.readReq 0x06 0xD2).wf = true := by
  decide +kernel
theorem witness_EncodeDecodeAgree :
    (∀ x, Wire.datagram [0x05, 0x00, 0x06, 0xD2] ≠ .cmd x) ∧
      decode (.datagram [0x05, 0x00, 0x06, 0xD2]) = .ok (.readReq 0x06 0xD2) := ⟨fun _ h => (nomatch h), by decide⟩
theorem witness_ReservedCodeRefused :
    ((0x40000000000000000000#80 : CmdWord).extractLsb' 72 8).toNat ∉ [0x01, 0x02, 0x03, 0x10, 0x11, 0x12, 0x13, 0x14, 0x15,
      0x16, 0x17, 0x18, 0x20, 0x21, 0x22, 0x30, 0x31] := by decide
theorem witness_StepRunsTheDecodedInstruction :
    wireOf 80 0x03000000000000000000 = some (.cmd 0x03000000000000000000#80) ∧
      decode (.cmd 0x03000000000000000000#80) = .ok .shutdown ∧
      { State.reset with inQ := [.word 80 0x03000000000000000000] }.inQ = .word 80 0x03000000000000000000 :: [] ∧
      { State.reset with inQ := [.evUnit [true]] }.inQ = .evUnit [true] :: [] ∧
      { State.reset with inQ := [.evHwErr] }.inQ = .evHwErr :: [] ∧
      { State.reset with inQ := [.tick true true] }.inQ = .tick true true :: [] ∧
      { State.reset with inQ := [.ports State.reset.ports] }.inQ = .ports State.reset.ports :: [] := by decide

/-! ### Witnesses: the Transport -/

theorem platform_has_line_0 : 0 < cfg.platformLines :=
  Nat.lt_of_lt_of_le cfg.drivers_ge cfg.lines_ge

theorem witness_TStartStartsATransfer :
    { State.reset with ports := { State.reset.ports with wdata := List.replicate 12 0 } }.running = false ∧
      (0 : Byte).toNat < cfg.platformLines ∧ State.reset.tr.tstate = .idle ∧ 1 ≤ (12 : Word).toNat ∧ (12 : Word).toNat ≤ 12 ∧
      1 ≤ (8 : Word).toNat ∧ (8 : Word).toNat ≤ 8 ∧ (List.replicate 12 (0 : Byte)).length = 12 :=
  ⟨rfl, platform_has_line_0, rfl, by decide, by decide, by decide, by decide, rfl⟩
/-- One witness for each ground of refusal that does not depend on how many lines the platform has. -/
theorem witness_TStartRefused :
    (trState .writing).running = false ∧
      ¬((trState .writing).tr.tstate = .idle ∨ (trState .writing).tr.tstate = .complete ∨ (trState .writing).tr.tstate = .error) ∧
      (0 : Word).toNat = 0 ∧ 12 < (13 : Word).toNat ∧ 8 < (9 : Word).toNat := by decide
theorem witness_EvUnitWhileWriting :
    (trState .writing).tr.tstate = .writing ∧ (trState .writing).tr.txQueued < (trState .writing).tr.txCount ∧
      { trWriting with txQueued := 12 }.txCount ≤ { trWriting with txQueued := 12 }.txQueued := by decide
theorem witness_EvUnitInTheGuards :
    (trState .delay).tr.tstate = .delay ∧ (trState .readSync1).tr.tstate = .readSync1 ∧
      (trState .readSync2).tr.tstate = .readSync2 := by decide
theorem witness_EvUnitCompletesTheCapture :
    (trState .reading).tr.tstate = .reading ∧ (trState .reading).tr.samples = [] ∧
      (List.replicate (captureLen cfg) true).length = captureLen cfg := ⟨rfl, rfl, by simp⟩
theorem witness_HardwareErrorEndsTheTransfer :
    (trState .writing).tr.tstate = .writing ∧ (trState .delay).tr.tstate = .delay ∧
      (trState .readSync1).tr.tstate = .readSync1 ∧ (trState .readSync2).tr.tstate = .readSync2 ∧
      (trState .reading).tr.tstate = .reading := by decide
theorem witness_EventsOutsideATransferIgnored :
    (trState .idle).tr.tstate = .idle ∧ (trState .complete).tr.tstate = .complete ∧ (trState .error).tr.tstate = .error := by
  decide
theorem witness_TCheckDeliversOnce :
    (trState .complete).running = false ∧ (trState .complete).tr.tstate = .complete ∧ (trState .error).running = false ∧
      (trState .error).tr.tstate ≠ .complete := by decide
theorem witness_TAbortStopsTheTransfer : (trState .reading).running = false := by decide
/-- A transfer of 4 bytes and the event counts 7 and 8, the values on both sides of completion. -/
theorem witness_EventsPerTransfer :
    (Transport.reset.start cfgRef 0 [0x05, 0x00, 0x06, 0xD2] 8).isSome = true ∧
      7 < [0x05, 0x00, 0x06, 0xD2].length - min cfgRef.preloadBytes [0x05, 0x00, 0x06, 0xD2].length + 5 ∧
      cfgRef.preloadBytes = 1 := by decide
/-- The last tick before the switch to input is 179, the first of the capture 180, the last 515 (section 5.1). -/
theorem witness_LineCarriesTheWriteWaveform :
    (Transport.reset.start cfgRef 0 [0x05, 0x00, 0x06, 0xD2] 8).isSome = true ∧
      (cfgRef.idleBits + 10 * 4) * cfgRef.oversample + holdTicks cfgRef 4 = 180 ∧ 180 + captureLen cfgRef = 516 := by decide
theorem witness_DirectCommandsRefusedWhileRunning :
    (oneDriver refDriver).running = true ∧ (∃ line wc rc, Instr.tStart 0 4 8 = .tStart line wc rc) ∧
      (∃ b, Instr.encode 0xA5 = .encode b) ∧ ∃ n, Instr.decode 8 = .decode n :=
  ⟨rfl, ⟨0, 4, 8, rfl⟩, ⟨0xA5, rfl⟩, 8, rfl⟩

/-! ### Witnesses: refusals, INIT, SHUTDOWN -/

theorem witness_EngineCommandsRefused :
    State.reset.running = false ∧ driverOperand (.setcur 0 800) = some 0 ∧
      driverOperand (.setcur 1 1000) = some 1 ∧ (oneDriver refDriver).nDrivers ≤ (1 : Byte).toNat := by decide
theorem witness_InitGivesEveryField :
    1 ≤ (1 : Word).toNat ∧ (1 : Word).toNat ≤ cfg.maxDrivers ∧ (0 : Word).toNat = 0 := ⟨by decide, cfg.drivers_ge, rfl⟩
theorem witness_ShutdownStopsTheEngine : (inFlight refDriver).running = true := rfl

/-! ### Witnesses: the engine -/

/-- The driver of 6.2: slot 3 dirty, every slot of lower index clean. -/
def dirtyDriver : Driver := refDriver.updateRegister .currentConf 0x0000190C

theorem witness_EStartSendsTheLowestDirtySlot :
    (oneDriver dirtyDriver).running = true ∧ (oneDriver dirtyDriver).drivers[0]? = some dirtyDriver ∧ (oneDriver dirtyDriver).tr.tstate = .idle ∧
      WSlot.currentConf.index < dirtyDriver.nWrite ∧ (dirtyDriver.w.get .currentConf).dirty = true ∧
      (∀ j : WSlot, j.index < WSlot.currentConf.index → (dirtyDriver.w.get j).dirty = false) :=
  ⟨rfl, rfl, rfl, by decide, rfl, fun j => by cases j <;> decide +kernel⟩
theorem witness_EStartReadsAtTheCursor :
    (oneDriver refDriver).running = true ∧ (oneDriver refDriver).drivers[0]? = some refDriver ∧
      (oneDriver refDriver).tr.tstate = .idle ∧ (∀ j : WSlot, j.index < refDriver.nWrite → (refDriver.w.get j).dirty = false) ∧
      refDriver.r[refDriver.readCursor]? = some { regNum := 0x06, last := 0, accum := 0 } :=
  ⟨rfl, rfl, rfl, fun j => by cases j <;> decide +kernel, by decide⟩
/-- An accepted and a rejected response (section 6.2). -/
theorem witness_EDoneOnAWrite :
    let d : Driver := { refDriver with pending := .write .currentConf, lastIfCount := 3 }
    let good : Transport := { trDelivered with rxBuf := [0x05, 0x00, 0x02, 0x00, 0x00, 0x00, 0x14, 0x02], rxDecoded := 8 }
    let bad : Transport := { trDelivered with rxBuf := [0x05, 0x00, 0x02, 0x00, 0x00, 0x00, 0x03, 0x67], rxDecoded := 8 }
    ({ oneDriver d with tr := good }).running = true ∧ ({ oneDriver d with tr := good }).drivers[0]? = some d ∧
      good.rxValid = true ∧ bad.rxValid = true ∧ d.pending = .write .currentConf ∧
      WSlot.currentConf.index < d.nWrite ∧ judgeWrite d.lastIfCount good.rx = none ∧ judgeWrite d.lastIfCount bad.rx ≠ none :=
  ⟨rfl, rfl, rfl, rfl, rfl, by decide, by decide +kernel, by decide +kernel⟩
theorem witness_EDoneOnAnAcceptedRead :
    let d : Driver := { refDriver with pending := .read 1, maxReadCount := 2 }
    let s : State := { oneDriver d with
      tr := { trDelivered with rxBuf := [0x05, 0xFF, 0x6F, 0x00, 0x00, 0x00, 0xC0, 0xD7], rxDecoded := 8 }
      ports := { State.reset.ports with fullStepInterval := [0] } }
    s.running = true ∧ s.tr.rxValid = true ∧ s.drivers[0]? = some d ∧ d.pending = .read 1 ∧ d.r[1]? = some { regNum := 0x6F, last := 0, accum := 0 } ∧
      (0x6F : Byte) = 0#1 ++ (0x6F : RegNum) ∧ s.tr.rx = [0x05, 0xFF, 0x6F, 0x00, 0x00, 0x00, 0xC0, 0xD7] ∧
      s.ports.fullStepInterval[0]? = some 0 := by decide +kernel
theorem witness_EDoneOnARejectedRead :
    let d : Driver := { refDriver with pending := .read 1, maxReadCount := 2 }
    let s : State := { oneDriver d with tr := trDelivered }
    s.running = true ∧ s.tr.rxValid = true ∧ s.drivers[0]? = some d ∧ d.pending = .read 1 ∧
      d.r[1]? = some { regNum := 0x6F, last := 0, accum := 0 } ∧ judgeRead 0x6F s.tr.rx ≠ none := by decide +kernel
/-- A driver that is not settled, one that becomes ready, and one that is widened. -/
theorem witness_BringUpTest :
    let base : Driver := { refDriver with state := .initialising, readCycleDone := true }
    let ext : Driver := { base with r := base.r.set 0 { regNum := 0x06, last := 0x21000040, accum := 0 } }
    refDriver.state ≠ .initialising ∧ refDriver.r[cfgRef.identSlot]? = some { regNum := 0x06, last := 0, accum := 0 } ∧
      base.state = .initialising ∧ base.readCycleDone = true ∧
      (∀ i : WSlot, i.index < base.nWrite → (base.w.get i).dirty = false) ∧ cfgRef.isExtended 0 = false ∧
      ext.r[cfgRef.identSlot]? = some { regNum := 0x06, last := 0x21000040, accum := 0 } ∧
      cfgRef.isExtended 0x21000040 = true ∧ ext.widened = false :=
  ⟨by decide, by decide, rfl, rfl, fun i => by cases i <;> decide +kernel, by decide, by decide, by decide, rfl⟩
theorem witness_ETimeoutCountsAndAborts :
    (inFlight refDriver).running = true ∧ (inFlight refDriver).drivers[0]? = some refDriver := ⟨rfl, rfl⟩
/-- The stopped engine, a driver just beyond the last, a pending transfer without bytes, and nothing pending. -/
theorem witness_WhereInternalOperationsStop :
    let d : Driver := { refDriver with pending := .read 0 }
    State.reset.running = false ∧ (oneDriver refDriver).running = true ∧ (oneDriver refDriver).nDrivers ≤ 1 ∧
      (inFlight d).running = true ∧ (inFlight d).drivers[0]? = some d ∧ d.pending ≠ .none ∧ (inFlight d).tr.rxValid = false ∧
      (oneDriver refDriver).drivers[0]? = some refDriver ∧ refDriver.pending = .none := by decide +kernel
theorem witness_GetNextIsRoundRobin : (oneDriver refDriver).running = true := rfl
theorem witness_ServedTwiceOnlyWhenAlone :
    let s : State := { State.reset with drivers := [{ refDriver with maxReadCount := 2 }, refDriver] }
    s.lastServiced = 0 ∧ s.nextDriver = some 0 ∧ 1 ≠ 0 ∧ s.drivers[1]? = some refDriver := by decide +kernel

/-! ### Witnesses: SPIN -/

/-- A driver with power. -/
def readyDriver : Driver := { refDriver with state := .ready, maxReadCount := 2 }

/-- What holds of every driver of a one-driver engine. -/
theorem oneDriver_all (P : Driver → Prop) (d : Driver) (hd : P d) (i : Nat) (x : Driver) (h : [d][i]? = some x) : P x := by
  cases i with
  | zero =>
    cases h
    exact hd
  | succ i => simp at h

theorem witness_SpinWithoutPower :
    (inFlight readyDriver).running = true ∧ (inFlight readyDriver).currentDriver ≠ none ∧
      (oneDriver readyDriver).currentDriver = none := by decide
theorem witness_SpinPowersUp :
    (oneDriver refDriver).running = true ∧ (oneDriver refDriver).currentDriver = none ∧ (oneDriver refDriver).tr.tstate = .idle ∧
      1 ≤ (oneDriver refDriver).nDrivers ∧
      ∀ (i : Nat) (d : Driver), (oneDriver refDriver).drivers[i]? = some d → d.state = .noPower :=
  ⟨rfl, rfl, rfl, by decide, oneDriver_all _ _ rfl⟩
/-- A read in flight of a driver served again, and a transfer of a driver that is absent by then, so that none is eligible. -/
theorem witness_SpinRetiresACompletedTransfer :
    let d : Driver := { readyDriver with pending := .read 0 }
    let gone : Driver := { refDriver with state := .notInitialised }
    let s : State := { inFlight d with tr := trComplete }
    let u (x : Driver) : State := { oneDriver x with lastServiced := 0 }
    s.running = true ∧ s.currentDriver = some 0 ∧ s.drivers[0]? = some d ∧ s.tr.tstate = .complete ∧
      (∀ (i : Nat) (x : Driver), s.drivers[i]? = some x → x.state ≠ .noPower) ∧
      ({ inFlight gone with tr := trComplete } : State).drivers[0]? = some gone ∧ gone.state ≠ .noPower ∧
      (u readyDriver).nextDriver = some 0 ∧ (u gone).nextDriver = none :=
  ⟨rfl, rfl, rfl, rfl, oneDriver_all _ _ (by decide), rfl, by decide, by decide +kernel, by decide +kernel⟩
/-- The 11th timeout of a read, after which no driver is eligible, and the first of a write, which is sent again. -/
theorem witness_SpinTimesOut :
    let d : Driver := { readyDriver with pending := .read 0, numTimeouts := 10 }
    let w : Driver := { readyDriver with pending := .write .currentConf }
    let s : State := inFlight d
    s.running = true ∧ s.currentDriver = some 0 ∧ s.drivers[0]? = some d ∧ s.tr.tstate ≠ .complete ∧
      cfgRef.transferTimeout < ((11 : Word) - s.transferStartTime).toNat ∧ 10 < ((10 : Word) + 1).toNat ∧
      (∀ (j : Nat) (x : Driver), s.drivers[j]? = some x → x.state ≠ .noPower) ∧
      (oneDriver d.timeOut).nextDriver = none ∧ (inFlight w).drivers[0]? = some w ∧ w.pending = .write .currentConf ∧
      (oneDriver w.timeOut).nextDriver = some 0 ∧
      ∀ (j : Nat) (x : Driver), (inFlight w).drivers[j]? = some x → x.state ≠ .noPower :=
  ⟨rfl, rfl, rfl, by decide, by decide, by decide, oneDriver_all _ _ (by decide), by decide +kernel, rfl, rfl,
    by decide +kernel, oneDriver_all _ _ (by decide)⟩
theorem witness_SpinWaits :
    (inFlight readyDriver).running = true ∧ (inFlight readyDriver).currentDriver = some 0 ∧
      (inFlight readyDriver).tr.tstate ≠ .complete ∧
      ((1 : Word) - (inFlight readyDriver).transferStartTime).toNat ≤ cfg.transferTimeout ∧
      ∀ (i : Nat) (x : Driver), (inFlight readyDriver).drivers[i]? = some x → x.state ≠ .noPower :=
  ⟨rfl, rfl, by decide, cfg.timeout_ge, oneDriver_all _ _ (by decide)⟩
/-- With an eligible driver, and with none. -/
theorem witness_SpinStartsTheNextTransfer :
    let absent : Driver := { refDriver with state := .notInitialised }
    (oneDriver readyDriver).running = true ∧ (oneDriver readyDriver).currentDriver = none ∧
      (oneDriver readyDriver).tr.tstate = .idle ∧ (oneDriver readyDriver).nextDriver = some 0 ∧
      (∀ (i : Nat) (x : Driver), (oneDriver readyDriver).drivers[i]? = some x → x.state ≠ .noPower) ∧
      (oneDriver absent).nextDriver = none ∧
      ∀ (i : Nat) (x : Driver), (oneDriver absent).drivers[i]? = some x → x.state ≠ .noPower :=
  ⟨rfl, rfl, rfl, by decide +kernel, oneDriver_all _ _ (by decide), by decide +kernel, oneDriver_all _ _ (by decide)⟩

/-! ### Witnesses: the commands on a driver -/

/-- The state for a command on driver 0; the chopper value 0 asks for a change of the vsense bit at the smallest current, the
value of ones asks for none. -/
theorem witness_SetCurrentWritesTheCodes :
    let ones : Driver := refDriver.updateRegister .chopperConf (BitVec.allOnes 32)
    (oneDriver refDriver).running = true ∧ (oneDriver refDriver).drivers[(0 : Byte).toNat]? = some refDriver ∧
      (oneDriver ones).drivers[(0 : Byte).toNat]? = some ones ∧ senseRange cfg (clampCurrent cfg (0 : Word).toNat) = .vs1 ∧
      (ones.w.get .chopperConf).value.getLsbD cfg.vsenseBit = (SenseRange.vs1 == .vs1) ∧
      (refDriver.w.get .chopperConf).value.getLsbD cfg.vsenseBit ≠ (SenseRange.vs1 == .vs1) := by
  refine ⟨rfl, rfl, rfl, if_pos cfg.iMax_ge, ?_, ?_⟩
  · show (BitVec.allOnes 32).getLsbD cfg.vsenseBit = true
    rw [BitVec.getLsbD_allOnes]
    exact decide_eq_true cfg.chopperFields.1
  · show (0 : Word).getLsbD cfg.vsenseBit ≠ true
    simp
theorem witness_CurrentBoundary : cfgRef.iMaxVs1 < cfgRef.deviceMaxMA := by decide
/-- The largest valid count, and the counts 0, 3 and 512. -/
theorem witness_SetMicrostepsWritesTheField :
    (oneDriver refDriver).running = true ∧ (oneDriver refDriver).drivers[(0 : Byte).toNat]? = some refDriver ∧
      (256 : Word).toNat = 2 ^ (8 : Fin 9).val ∧ (1 : Word).toNat = 2 ^ (0 : Fin 9).val ∧
      (∀ shift : Fin 9, (0 : Word).toNat ≠ 2 ^ shift.val) ∧ (∀ shift : Fin 9, (3 : Word).toNat ≠ 2 ^ shift.val) ∧
      (∀ shift : Fin 9, (512 : Word).toNat ≠ 2 ^ shift.val) := by decide +kernel
theorem witness_StallCommandsWriteTheirSlots :
    (oneDriver refDriver).running = true ∧ (oneDriver refDriver).drivers[(0 : Byte).toNat]? = some refDriver := ⟨rfl, rfl⟩
theorem witness_StatusCommandsAnswer :
    (oneDriver (initDriver cfg 0)).running = true ∧
      (oneDriver (initDriver cfg 0)).drivers[(0 : Byte).toNat]? = some (initDriver cfg 0) ∧
      (initDriver cfg 0).r[cfg.statusSlot]? = some { regNum := cfg.rreg cfg.statusSlot, last := 0, accum := 0 } := by
  refine ⟨rfl, rfl, ?_⟩
  have h : cfg.statusSlot < cfg.nReadExt := Nat.lt_of_lt_of_le cfg.status_lt cfg.nReadBase_le
  simp [initDriver, h]
theorem witness_SetRegWritesTheNamedSlot :
    (oneDriver refDriver).running = true ∧ (oneDriver refDriver).drivers[(0 : Byte).toNat]? = some refDriver ∧
      (8 : Word).toNat = WSlot.stallThreshold.index ∧ 8 < (9 : Word).toNat := by decide +kernel
/-- A name for each clause, at the ends of its range. -/
theorem witness_GetRegAnswersTheNamedValue :
    (oneDriver refDriver).running = true ∧ (oneDriver refDriver).drivers[(0 : Byte).toNat]? = some refDriver ∧
      refDriver.r.length = cfgRef.nReadExt ∧ (0 : Word).toNat = WSlot.globalConf.index ∧ (0x12 : Word).toNat = 0x10 + 2 ∧
      refDriver.r[2]? = some { regNum := 0x41, last := 0, accum := 0 } ∧ 9 ≤ (9 : Word).toNat ∧ (0xF : Word).toNat < 0x10 ∧
      0x10 + cfgRef.nReadExt ≤ (0x13 : Word).toNat ∧ (0x13 : Word).toNat < 0x20 ∧
      0x10 + cfgRef.nReadExt ≤ (0x20 : Word).toNat ∧ 0x10 + cfgRef.nReadExt ≤ (0x26 : Word).toNat ∧ 0x26 < (0x27 : Word).toNat := by
  decide +kernel

/-! ### Witnesses: datagrams and the whole machine -/

/-- A register of each file, the interface counter, and registers outside both files. -/
theorem witness_RequestsAreIssued :
    State.reset.running = false ∧ State.reset.tr.tstate = .idle ∧ (∃ i : WSlot, cfg.wreg i = cfg.wreg .globalConf) ∧
      (∀ i : WSlot, cfg.wreg i ≠ 0x02) ∧ (0 < cfg.nReadExt ∧ cfg.rreg 0 = cfg.rreg 0) ∧ (0x7F : RegNum) ≠ 0x02 ∧
      ∀ k : Nat, k < cfgRef.nReadExt → cfgRef.rreg k ≠ 0x7F :=
  ⟨rfl, rfl, ⟨.globalConf, rfl⟩, cfg.wreg_ne_ifcnt, ⟨Nat.lt_of_lt_of_le (Nat.zero_lt_of_lt cfg.ident_lt) cfg.nReadBase_le, rfl⟩,
    by decide, by decide⟩
theorem witness_RepliesAreCaptured :
    (trState .writing).tr.tstate ≠ .reading ∧ (trState .reading).tr.tstate = .reading ∧ (trState .reading).tr.samples = [] := by
  decide

/-- The Transport of `inFlight` meets its invariant. -/
theorem trWriting_inv (c : Config) : trWriting.Inv c := by
  constructor <;> simp [trWriting, Transport.reset, maxWriteBytes, maxReadBytes]

/-- A driver as `INIT` makes it meets its invariant. -/
theorem initDriver_inv (c : Config) : (initDriver c 0).Inv c 0 := by
  constructor
  case slots => intro j; simp [initDriver, get_build]
  all_goals simp [initDriver]

/-- So it does after power-apply. -/
theorem poweredDriver_inv (c : Config) : ((initDriver c 0).powerApply c).Inv c 0 := by
  constructor
  case slots => intro j; simp [Driver.powerApply, initDriver, get_build, get_mapSlots]
  case polled => have h1 := c.ident_lt; simp [Driver.powerApply]; omega
  case cursor => have h1 := c.ident_lt; simp [Driver.powerApply]; omega
  all_goals simp [Driver.powerApply, initDriver, Function.comp_def]

/-- A one-driver engine with no transfer in flight meets the invariant with its driver. -/
theorem oneDriver_inv (c : Config) (d : Driver) (hd : d.Inv c 0) (hp : d.pending = .none) : (oneDriver d).Inv c := by
  have h1 := c.drivers_ge
  constructor
  case transport => constructor <;> simp [oneDriver, State.reset, Transport.reset, TState.inTransfer, maxWriteBytes, maxReadBytes]
  case driver => intro i x h; cases i with
    | zero => cases h; exact hd
    | succ i => simp [oneDriver] at h
  case current => intro i x h; cases i with
    | zero => cases h; simp [oneDriver, State.reset, hp]
    | succ i => simp [oneDriver] at h
  all_goals simp [oneDriver, State.reset, State.nDrivers, Transport.reset]
  omega

/-- So does one whose driver has a transfer in flight. -/
theorem inFlight_inv (c : Config) (d : Driver) (hd : d.Inv c 0) (hp : d.pending ≠ .none) : (inFlight d).Inv c := by
  have h1 := c.drivers_ge
  constructor
  case transport => exact trWriting_inv c
  case driver => intro i x h; cases i with
    | zero => cases h; exact hd
    | succ i => simp [inFlight, oneDriver] at h
  case current => intro i x h; cases i with
    | zero => cases h; simp [inFlight, hp]
    | succ i => simp [inFlight, oneDriver] at h
  all_goals simp [inFlight, oneDriver, State.reset, State.nDrivers, trWriting, Transport.reset]
  omega

/-- A driver whose slot 0 is dirty, and one whose write of slot 0 is in flight. -/
def poweredDriver : Driver := (initDriver cfg 0).powerApply cfg
def writingDriver : Driver := { poweredDriver with pending := .write .globalConf }

theorem writingDriver_inv : writingDriver.Inv cfg 0 := by
  obtain ⟨h1, h2, h3, h4, h5, h6, h7, h8, h9, h10⟩ := poweredDriver_inv cfg
  have hi := cfg.ident_lt
  have hw := cfg.nWriteBase_ge
  have hm : cfg.nReadBase ≠ 0 := by omega
  exact ⟨h1, h2, h3, h4, h5, h6, fun _ => hm, fun j hj => by cases hj; exact hw, fun k hk => (nomatch hk), h10⟩

/-- The next word is a `SHUTDOWN`. -/
def withShutdown (s : State) : State := s.withFetchWord 80 0x03000000000000000000

theorem withShutdown_inv (c : Config) (s : State) (h : s.Inv c) : (withShutdown s).Inv c :=
  ⟨h.transport, h.driver, h.count, h.current, h.currentInRange, h.inFlight, h.engineIdle⟩

theorem withShutdown_step (s : State) (h : s.running = true) :
    step (withShutdown s) = .next (s.shutDown.answer true 0) := by
  have e : step (withShutdown s) = execShutdown { s with inQ := s.inQ } := rfl
  rw [e]
  simp [execShutdown, h]

theorem witness_StepKeepsTheInvariant :
    (withShutdown (inFlight writingDriver)).Inv cfg ∧
      step (withShutdown (inFlight writingDriver)) = .next ((inFlight writingDriver).shutDown.answer true 0) :=
  ⟨withShutdown_inv _ _ (inFlight_inv _ _ writingDriver_inv (by simp [writingDriver])), withShutdown_step _ rfl⟩

/-- A dirty slot over a `SETREG` for another one, and a pending write over a step in which nothing arrives. -/
theorem witness_NoWriteIsLost :
    let s : State := (oneDriver poweredDriver).withFetchWord 80 0x17000000000112345678
    s.Inv cfg ∧ (∃ t d', step s = .next t ∧ t.drivers[0]? = some d') ∧ s.drivers[0]? = some poweredDriver ∧
      WSlot.globalConf.index < poweredDriver.nWrite ∧ (poweredDriver.w.get .globalConf).dirty = true ∧
      (inFlight writingDriver).Inv cfg ∧ step (inFlight writingDriver) = .next (inFlight writingDriver) ∧
      (inFlight writingDriver).drivers[0]? = some writingDriver ∧ writingDriver.pending = .write .globalConf ∧
      WSlot.globalConf.index < writingDriver.nWrite := by
  have hw := cfg.nWriteBase_ge
  have h0 := oneDriver_inv _ _ (poweredDriver_inv cfg) rfl
  refine ⟨⟨h0.transport, h0.driver, h0.count, h0.current, h0.currentInRange, h0.inFlight, h0.engineIdle⟩, ?_, rfl, hw, ?_,
    inFlight_inv _ _ writingDriver_inv (by simp [writingDriver]), rfl, rfl, rfl, hw⟩
  · exact ⟨_, _, rfl, rfl⟩
  · show decide (0 < cfg.nWriteBase) = true
    exact decide_eq_true hw

/-- A latch with a bit set, over a `SHUTDOWN`. -/
theorem witness_LatchedBitsStay :
    let d : Driver := { refDriver with r := [{ regNum := 0x06, last := 0, accum := 1 }] }
    let s : State := withShutdown (oneDriver d)
    (∃ t, step s = .next t) ∧ s.fetch = .run .shutdown (oneDriver d) ∧ s.drivers[0]? = some d ∧
      d.r[0]? = some { regNum := 0x06, last := 0, accum := 1 } ∧ (1 : Word).getLsbD 0 = true :=
  ⟨⟨_, withShutdown_step _ rfl⟩, rfl, rfl, rfl, rfl⟩

/-- A ready driver, one that is absent and one without power, each over a `SHUTDOWN`. -/
theorem witness_DriverStatesFollowTheTable :
    (∀ x : DriverState, x = .ready ∨ x = .notInitialised ∨ x = .noPower →
      ∃ d : Driver, d.state = x ∧ (withShutdown (oneDriver d)).Inv cfg ∧
        step (withShutdown (oneDriver d)) = .next ((oneDriver d).shutDown.answer true 0) ∧
        (withShutdown (oneDriver d)).drivers[0]? = some d ∧
        ((oneDriver d).shutDown.answer true 0).drivers[0]? = some d.powerOff) := by
  have key : ∀ d : Driver, d.Inv cfg 0 → d.pending = .none → (withShutdown (oneDriver d)).Inv cfg ∧
        step (withShutdown (oneDriver d)) = .next ((oneDriver d).shutDown.answer true 0) ∧
        (withShutdown (oneDriver d)).drivers[0]? = some d ∧
        ((oneDriver d).shutDown.answer true 0).drivers[0]? = some d.powerOff := fun d hd hp =>
    ⟨withShutdown_inv _ _ (oneDriver_inv _ _ hd hp), withShutdown_step _ rfl, rfl, rfl⟩
  rintro x (rfl | rfl | rfl)
  · refine ⟨{ poweredDriver with state := .ready }, rfl, key _ ?_ rfl⟩
    obtain ⟨h1, h2, h3, h4, h5, h6, h7, h8, h9, h10⟩ := poweredDriver_inv cfg
    exact ⟨h1, h2, ⟨fun _ => .inr rfl, fun _ => h3.mpr (.inl rfl)⟩, h4, h5, h6, h7, h8, h9, h10⟩
  · refine ⟨{ initDriver cfg 0 with state := .notInitialised }, rfl, key _ ?_ rfl⟩
    obtain ⟨h1, h2, h3, h4, h5, h6, h7, h8, h9, h10⟩ := initDriver_inv cfg
    exact ⟨h1, h2, by simp [initDriver], h4, h5, h6, h7, h8, h9, h10⟩
  · exact ⟨initDriver cfg 0, rfl, key _ (initDriver_inv cfg) rfl⟩

/-- A `SETREG` word, and a tick. -/
theorem witness_OnlySpinServesDrivers :
    let s : State := (oneDriver refDriver).withFetchWord 80 0x17000000000112345678
    s.fetch = .run (.setreg 0 1 0x12345678) (oneDriver refDriver) ∧
      (∃ t d', step s = .next t ∧ t.drivers[0]? = some d') ∧ s.drivers[0]? = some refDriver ∧
      ∃ t, step { inFlight refDriver with inQ := [.tick true false] } = .next t :=
  ⟨rfl, ⟨_, _, rfl, rfl⟩, rfl, _, rfl⟩

end Sys2Proof.Tests
end

section
/-! What `fetch` takes from the queue and what `step` makes of it, and the statement that a step runs the decoded
instruction. -/

namespace Sys2Proof.Machine

/-! ### What a step makes of the next thing to happen -/

theorem step_of_fetch_run {s s' : State} {i : Instr} (h : s.fetch = .run i s') : step s = exec i s' := by
  simp only [step, h]

theorem step_of_fetch_settled {s s' : State} (h : s.fetch = .settled s') : step s = .next s' := by
  simp only [step, h]

/-! ### What is fetched from each kind of arrival -/

section Fetch
variable {s : State} {rest : List Input}

theorem fetch_of_word {nbits w : Nat} (hq : s.inQ = .word nbits w :: rest) :
    s.fetch = ({ s with inQ := rest } : State).fetchWord nbits w := by
  simp only [State.fetch, hq]

theorem fetch_of_evUnit {capture : List Level} (hq : s.inQ = .evUnit capture :: rest) :
    s.fetch = .run (.evUnit capture) { s with inQ := rest } := by
  simp only [State.fetch, hq]

theorem fetch_of_evHwErr (hq : s.inQ = .evHwErr :: rest) : s.fetch = .run .evHwErr { s with inQ := rest } := by
  simp only [State.fetch, hq]

theorem fetch_of_tick {lineIn : Level} {hwErr : Bool} (hq : s.inQ = .tick lineIn hwErr :: rest) :
    s.fetch = .settled { s with inQ := rest, tr := s.tr.tick cfg lineIn hwErr } := by
  simp only [State.fetch, hq]

theorem fetch_of_ports {p : Ports} (hq : s.inQ = .ports p :: rest) :
    s.fetch = .settled { s with inQ := rest, ports := p } := by
  simp only [State.fetch, hq]

end Fetch

/-- A word that is the form `x`, and that decodes (R129). -/
theorem fetchWord_of_decode {s : State} {nbits w : Nat} {x : Wire} {i : Instr} (hx : wireOf nbits w = some x)
    (hi : decode x = .ok i) : s.fetchWord nbits w = .run i s := by
  simp only [State.fetchWord, hx, hi]

/-- Settles O11: each clause is what is fetched from its kind of arrival, followed by what a step makes of it. -/
theorem stepRunsTheDecodedInstruction : Obligations.StepRunsTheDecodedInstruction := by
  unfold Obligations.StepRunsTheDecodedInstruction
  intro s rest
  refine ⟨?word, ?evUnit, ?evHwErr, ?tick, ?ports⟩
  case word =>
    intro nbits w x i hq hx hi
    exact step_of_fetch_run ((fetch_of_word hq).trans (fetchWord_of_decode hx hi))
  case evUnit => exact fun _ hq => step_of_fetch_run (fetch_of_evUnit hq)
  case evHwErr => exact fun hq => step_of_fetch_run (fetch_of_evHwErr hq)
  case tick => exact fun _ _ hq => step_of_fetch_settled (fetch_of_tick hq)
  case ports => exact fun _ hq => step_of_fetch_settled (fetch_of_ports hq)

end Sys2Proof.Machine
end

section
/-! SUPPORT. The Transport's invariant: each operation on the Transport keeps it, and no event or tick moves the Transport
into or out of `idle` or to another line. -/

namespace Sys2Proof.Machine

/-! ### Decoding gives at most the bytes asked for (R144, R150) -/

theorem resync_bytes (os : Nat) (S : List Level) (p : Nat) (v : Level) (x : DecodeVars) :
    (resync os S p v x).bytes = x.bytes := by
  unfold resync
  split <;> rfl

theorem takeBit_bytes_length_le {v : Level} {x y : DecodeVars} (h : takeBit v x = some y) :
    y.bytes.length ≤ x.bytes.length + 1 := by
  unfold takeBit at h
  split_ifs at h <;> cases h <;> simp

theorem decodeLoop_length_le (os : Nat) (S : List Level) (n fuel : Nat) :
    ∀ x : DecodeVars, x.bytes.length ≤ n → (decodeLoop os S n fuel x).length ≤ n := by
  induction fuel with
  | zero => exact fun x hx => hx
  | succ fuel ih =>
    intro x hx
    rw [decodeLoop_step]
    split
    · exact hx
    · rename_i hn
      split
      · exact hx
      · split
        · exact hx
        · rename_i y hy
          have hlen : y.bytes.length ≤ x.bytes.length + 1 := resync_bytes os S _ _ x ▸ takeBit_bytes_length_le hy
          exact ih _ (show y.bytes.length ≤ n by omega)

theorem decodeSamples_length_le (os : Nat) (S : List Level) (n : Nat) : (decodeSamples os S n).length ≤ n :=
  decodeLoop_length_le os S n _ _ (Nat.zero_le n)

/-! ### The two easy shapes of the invariant -/

/-- The counts in their ranges, as `Transport.Inv` asks outside `idle` (R48, R49, R181). -/
abbrev Transport.CountsInRange (t : Transport) : Prop :=
  t.txQueued ≤ t.txCount ∧ 1 ≤ t.txCount ∧ t.txCount ≤ maxWriteBytes ∧ 1 ≤ t.rxCount ∧ t.rxCount ≤ maxReadBytes

section
variable {c : Config} {t : Transport}

theorem not_idle_of_inTransfer (hin : t.tstate.inTransfer = true) : t.tstate ≠ .idle := fun hi => by
  simp [hi, TState.inTransfer] at hin

/-- While the block drives the line only the direction, the counts and the sizes are at stake. -/
theorem Transport.Inv.of_driving (hin : t.tstate.inTransfer = true) (hr : t.tstate ≠ .reading) (hdir : t.lineDir = .output)
    (hcounts : t.CountsInRange) (htx : t.txBuf.length = maxWriteBytes)
    (hrx : t.rxBuf.length = t.rxDecoded ∧ t.rxDecoded ≤ maxReadBytes) : t.Inv c where
  notWriteSync h := by simp [h, TState.inTransfer] at hin
  dirInput := by simp [hdir, hr]
  quietHigh h := by simp [hin] at h
  counts _ := hcounts
  txSize := htx
  rxSize := hrx
  capturing h := absurd h hr
  captured h := by simp [h, TState.inTransfer] at hin

/-- In `idle` and `error` nothing is captured, and the lines are at rest. -/
theorem Transport.Inv.of_stopped (hs : t.tstate = .idle ∨ t.tstate = .error) (hdir : t.lineDir = .output)
    (hlevel : t.lineLevel = true) (hcounts : t.tstate ≠ .idle → t.CountsInRange)
    (htx : t.txBuf.length = maxWriteBytes) (hrx : t.rxBuf.length = t.rxDecoded ∧ t.rxDecoded ≤ maxReadBytes) : t.Inv c where
  notWriteSync h := by simp [h] at hs
  dirInput := by rcases hs with hs | hs <;> simp [hdir, hs]
  quietHigh _ := hlevel
  counts := hcounts
  txSize := htx
  rxSize := hrx
  capturing h := by simp [h] at hs
  captured h := by simp [h] at hs

/-- The line is an output in every state but `reading` (R181). -/
theorem Transport.Inv.lineDir_output (h : t.Inv c) (hr : t.tstate ≠ .reading) : t.lineDir = .output := by
  cases hd : t.lineDir with
  | output => rfl
  | input => exact absurd (h.dirInput.mp hd) hr

/-- The draws of free values are no part of the invariant. -/
theorem Transport.Inv.withDraws (h : t.Inv c) (n : Nat) : ({ t with draws := n } : Transport).Inv c :=
  ⟨h.notWriteSync, h.dirInput, h.quietHigh, h.counts, h.txSize, h.rxSize, h.capturing, h.captured⟩

/-! ### Every operation keeps it -/

theorem start_inv {line rc : Nat} {buf : List Byte} {t' : Transport} (h : t.Inv c) (hs : t.start c line buf rc = some t') :
    t'.Inv c := by
  obtain ⟨-, hb, hb', hr, hr', rfl⟩ := start_cases c line buf rc t t' hs
  refine .of_driving rfl TState.noConfusion rfl ⟨Nat.min_le_right _ _, hb, hb', hr, hr'⟩ ?_ h.rxSize
  have htx := h.txSize
  simp only [maxWriteBytes, List.length_append, List.length_drop] at htx ⊢
  omega

theorem unitDone_inv (h : t.Inv c) (capture : List Level) : (t.unitDone c capture).Inv c := by
  cases hin : t.tstate.inTransfer with
  | false => rwa [unitDone_ignored c capture t hin]
  | true =>
    have hcounts := h.counts (not_idle_of_inTransfer hin)
    rcases (inTransfer_iff _).mp hin with hs | hs | hs | hs | hs
    · have hdir := h.lineDir_output (by simp [hs])
      by_cases hq : t.txQueued < t.txCount
      · rw [unitDone_queue c capture t hs hq]
        exact .of_driving hin (by simp [hs]) hdir ⟨hq, hcounts.2⟩ h.txSize h.rxSize
      · rw [unitDone_written c capture t hs (Nat.le_of_not_lt hq)]
        exact .of_driving rfl (by simp) hdir hcounts h.txSize h.rxSize
    · rw [unitDone_delay c capture t hs]
      exact .of_driving rfl (by simp) (h.lineDir_output (by simp [hs])) hcounts h.txSize h.rxSize
    · rw [unitDone_readSync1 c capture t hs]
      exact .of_driving rfl (by simp) (h.lineDir_output (by simp [hs])) hcounts h.txSize h.rxSize
    · rw [unitDone_readSync2 c capture t hs]
      have hpos := captureLen_pos c
      constructor <;> simp [TState.inTransfer, hcounts, h.txSize, h.rxSize, hpos]
    · rw [unitDone_reading c capture t hs]
      constructor <;> simp [hcounts, h.txSize, h.rxSize, fillTo_length]

theorem halt_inv (h : t.Inv c) {x : TState} (hx : x = .idle ∨ x = .error ∧ t.tstate ≠ .idle) : (t.halt x).Inv c := by
  refine .of_stopped (hx.imp id And.left) rfl rfl (fun hi => ?_) h.txSize h.rxSize
  rcases hx with hx | ⟨-, hx⟩
  · exact absurd hx hi
  · exact h.counts hx

theorem abort_inv (h : t.Inv c) : t.abort.Inv c := halt_inv h (.inl rfl)

theorem hwError_inv (h : t.Inv c) : t.hwError.Inv c := by
  cases hin : t.tstate.inTransfer with
  | false => rwa [hwError_ignored t hin]
  | true =>
    rw [hwError_stops t hin]
    exact halt_inv h (.inr ⟨rfl, not_idle_of_inTransfer hin⟩)

theorem check_inv {t' : Transport} (h : t.Inv c) (hc : t.check c = some t') : t'.Inv c := by
  by_cases hs : t.tstate = .complete
  · rw [check_complete c t hs] at hc
    cases hc
    obtain ⟨-, -, -, -, hrc⟩ := h.counts (by simp [hs])
    exact .of_stopped (.inl rfl) rfl rfl (fun hi => absurd rfl hi) h.txSize
      ⟨rfl, (decodeSamples_length_le _ _ _).trans hrc⟩
  · rw [check_not_complete c t hs] at hc
    cases hc

theorem raiseDue_inv (h : t.Inv c) (n : Nat) : (t.raiseDue c n).Inv c := by
  induction n generalizing t with
  | zero => exact h
  | succ n ih =>
    rw [Transport.raiseDue]
    split
    · exact ih (unitDone_inv h [])
    · exact h

/-- The tick that takes the last sample of a capture is an `EV_UNIT` that carries this sample (R169, R176). -/
theorem tick_lastSample (lineIn : Level) (hs : t.tstate = .reading) (ht : t.timer ≤ 1) :
    t.tick c lineIn false = t.unitDone c [lineIn] := by
  rw [tick_capture c t lineIn hs, raiseDue_go _ _ _ (by simp [hs, TState.inTransfer]) (by simp; omega),
    unitDone_reading _ _ _ hs, unitDone_reading c _ _ (by exact hs), raiseDue_stop _ _ _ (by simp [TState.inTransfer])]
  simp

/-- During a capture, every other tick stores its sample and raises nothing (R176). -/
theorem tick_storeSample (lineIn : Level) (hs : t.tstate = .reading) (ht : 1 < t.timer) :
    t.tick c lineIn false =
      { t with samples := t.samples ++ [lineIn], sampleCount := t.sampleCount + 1, timer := t.timer - 1 } := by
  rw [tick_capture c t lineIn hs]
  exact raiseDue_stop _ _ _ fun hdue => by have := hdue.2; dsimp only at this; omega

theorem tick_inv (h : t.Inv c) (lineIn : Level) (hwErr : Bool) : (t.tick c lineIn hwErr).Inv c := by
  cases hin : t.tstate.inTransfer with
  | false => rwa [tick_quiet c t lineIn hwErr hin]
  | true =>
    cases hwErr with
    | true =>
      rw [tick_fault c t lineIn hin]
      exact halt_inv h (.inr ⟨rfl, not_idle_of_inTransfer hin⟩)
    | false =>
      have hcounts := h.counts (not_idle_of_inTransfer hin)
      by_cases hs : t.tstate = .reading
      · by_cases ht : t.timer ≤ 1
        · rw [tick_lastSample lineIn hs ht]
          exact unitDone_inv h _
        · rw [tick_storeSample lineIn hs (by omega)]
          obtain ⟨hcount, hlen, -⟩ := h.capturing hs
          constructor <;> simp [hs, TState.inTransfer, h.dirInput, hcounts, h.txSize, h.rxSize, hcount]
          omega
      · rw [tick_drive c t lineIn hin hs]
        refine raiseDue_inv ?_ 4
        exact .of_driving hin hs (h.lineDir_output hs) hcounts h.txSize h.rxSize

end

/-! ### What events and ticks leave as it is -/

/-- `u` is idle exactly when `t` is, and on the same line. -/
structure Transport.SameTransfer (t u : Transport) : Prop where
  idle_iff : u.tstate = .idle ↔ t.tstate = .idle
  lineSel : u.lineSel = t.lineSel

theorem Transport.SameTransfer.refl {t : Transport} : t.SameTransfer t := ⟨Iff.rfl, rfl⟩

theorem Transport.SameTransfer.trans {t u v : Transport} (h : t.SameTransfer u) (h' : u.SameTransfer v) : t.SameTransfer v :=
  ⟨h'.idle_iff.trans h.idle_iff, h'.lineSel.trans h.lineSel⟩

theorem unitDone_sameTransfer (c : Config) (capture : List Level) (t : Transport) : t.SameTransfer (t.unitDone c capture) := by
  unfold Transport.unitDone
  split
  case h_1 hs => split <;> exact ⟨by simp [hs], rfl⟩
  case h_2 hs | h_3 hs | h_4 hs | h_5 hs => exact ⟨by simp [hs], rfl⟩
  all_goals exact .refl

theorem hwError_sameTransfer (t : Transport) : t.SameTransfer t.hwError := by
  cases hin : t.tstate.inTransfer with
  | false =>
    rw [hwError_ignored t hin]
    exact .refl
  | true =>
    rw [hwError_stops t hin]
    exact ⟨⟨TState.noConfusion, fun hi => absurd hi (not_idle_of_inTransfer hin)⟩, rfl⟩

theorem raiseDue_sameTransfer (c : Config) (n : Nat) (t : Transport) : t.SameTransfer (t.raiseDue c n) := by
  induction n generalizing t with
  | zero => exact .refl
  | succ n ih =>
    rw [Transport.raiseDue]
    split
    · exact (unitDone_sameTransfer c [] t).trans (ih _)
    · exact .refl

theorem tick_sameTransfer (c : Config) (lineIn : Level) (hwErr : Bool) (t : Transport) :
    t.SameTransfer (t.tick c lineIn hwErr) := by
  cases hin : t.tstate.inTransfer with
  | false =>
    rw [tick_quiet c t lineIn hwErr hin]
    exact .refl
  | true =>
    cases hwErr with
    | true =>
      rw [tick_fault c t lineIn hin, ← hwError_stops t hin]
      exact hwError_sameTransfer t
    | false =>
      by_cases hs : t.tstate = .reading
      · rw [tick_capture c t lineIn hs]
        refine .trans ?_ (raiseDue_sameTransfer c 4 _)
        exact ⟨Iff.rfl, rfl⟩
      · rw [tick_drive c t lineIn hin hs]
        refine .trans ?_ (raiseDue_sameTransfer c 4 _)
        exact ⟨Iff.rfl, rfl⟩

end Sys2Proof.Machine
end

section
/-! SUPPORT. What each operation can make of a driver, and that it keeps the driver's invariant: the configuration commands
(R280 to R298), power (R242, R250), the engine's operations (R202 to R222) and the bring-up test (R244 to R247). -/

namespace Sys2Proof.Machine

/-! ### Configuration commands -/

/-- What a configuration command makes of a driver: its settings replaced (R42), then slot updates (R280). -/
inductive Driver.Configured (d : Driver) : Driver → Prop
  | settings (shift : Fin 9) (interpolate : Bool) (mA : Nat) :
      Configured d { d with microstepShift := shift, interpolate := interpolate, motorCurrent := mA }
  | update {d' : Driver} (h : Configured d d') (j : WSlot) (v : Word) : Configured d (d'.updateRegister j v)

section
variable {c : Config} {d d' : Driver} {res : Word}

theorem configured_refl : d.Configured d := .settings d.microstepShift d.interpolate d.motorCurrent

theorem setCurrent_configured (c : Config) (mA : Nat) (d : Driver) : d.Configured (d.setCurrent c mA).1 := by
  have hrun := (Driver.Configured.settings (d := d) d.microstepShift d.interpolate (clampCurrent c mA)).update .currentConf
    (withCurrentCodes c d.w.currentConf.value
      (currentCode c (senseRange c (clampCurrent c mA)) (clampCurrent c mA))
      (currentCode c (senseRange c (clampCurrent c mA)) (holdCurrent c (clampCurrent c mA) d.standstillFraction)))
  unfold Driver.setCurrent
  dsimp only
  split
  · exact hrun
  · exact hrun.update _ _

theorem setMicrosteps_configured {microsteps : Word} {interpolate : Bool}
    (h : d.setMicrosteps c microsteps interpolate = some (d', res)) : d.Configured d' := by
  unfold Driver.setMicrosteps at h
  split at h
  · cases h
  · cases h
    exact (Driver.Configured.settings _ _ _).update _ _

theorem setStall_configured (c : Config) (t : Int) (d : Driver) : d.Configured (d.setStall c t).1 :=
  configured_refl.update _ _

theorem setStallMin_configured (c : Config) (sps : Nat) (d : Driver) : d.Configured (d.setStallMin c sps).1 :=
  configured_refl.update _ _

theorem setRaw_configured {name v : Word} (h : d.setRaw c name v = some (d', res)) : d.Configured d' := by
  unfold Driver.setRaw at h
  split at h
  · cases h
    exact configured_refl.update _ _
  · cases h

theorem configured_pending (h : d.Configured d') : d'.pending = d.pending := by
  induction h with
  | settings => rfl
  | update _ j v ih => exact ih

theorem configured_r (h : d.Configured d') : d'.r = d.r := by
  induction h with
  | settings => rfl
  | update _ j v ih => exact ih

end

/-! ### The invariant, by what an operation changes -/

section
variable {c : Config} {i : Nat} {d : Driver}

/-- A write file every slot of which has its register number and its CRC (R29). -/
def WriteFile.SlotsOk (c : Config) (f : WriteFile) : Prop :=
  ∀ j, (f.get j).regNum = c.wreg j ∧ (f.get j).crc = slotCrc (c.wreg j) (f.get j).value

theorem slotsOk_set {f : WriteFile} {x : WriteSlot} {j : WSlot} (h : f.SlotsOk c)
    (hx : x.regNum = c.wreg j ∧ x.crc = slotCrc (c.wreg j) x.value) : (f.set j x).SlotsOk c := by
  intro k
  rw [get_set]
  split
  · next hk => rwa [hk]
  · exact h k

theorem slotsOk_set_dirty {f : WriteFile} (h : f.SlotsOk c) (j : WSlot) (x : Bool) :
    (f.set j { f.get j with dirty := x }).SlotsOk c := slotsOk_set h (h j)

/-! A configuration command. -/

theorem updateRegister_inv (h : d.Inv c i) (j : WSlot) (v : Word) : (d.updateRegister j v).Inv c i :=
  { h with slots := slotsOk_set h.slots ⟨(h.slots j).1, by rw [(h.slots j).1]⟩ }

theorem configured_inv {d' : Driver} (h : d.Inv c i) (hc : d.Configured d') : d'.Inv c i := by
  induction hc with
  | settings => exact { h with }
  | update _ j v ih => exact updateRegister_inv ih j v

/-- A read slot written back with its own register number (R34). -/
theorem setReadSlot_inv (h : d.Inv c i) (k : Nat) (last accum : Word) :
    (d.setReadSlot k { d.readSlot c k with last := last, accum := accum }).Inv c i := by
  refine { h with readRegs := Eq.trans ?_ h.readRegs }
  rw [setReadSlot_r, List.map_set]
  by_cases hk : k < d.r.length
  · have hself : (d.readSlot c k).regNum = (d.r.map ReadSlot.regNum)[k]'(by simpa using hk) := by
      simp [Driver.readSlot, hk]
    rw [hself, List.set_getElem_self]
  · exact List.set_eq_of_length_le (by simpa using hk)

theorem takeAccum_inv (h : d.Inv c i) (keep : Word) : (d.takeAccum c keep).1.Inv c i := setReadSlot_inv h _ _ _

/-! Power. -/

theorem initDriver_inv (c : Config) (i : Nat) : (initDriver c i).Inv c i := by
  constructor
  case slots => intro j; simp [initDriver]
  all_goals simp [initDriver]

theorem powerOff_inv (h : d.Inv c i) : d.powerOff.Inv c i :=
  { h with
    polled := by simp
    readSet := fun hm => absurd rfl hm
    cursor := fun hm => absurd rfl hm
    pendingPolled := fun hp => absurd rfl hp
    pendingWrite := fun _ hp => nomatch hp
    pendingRead := fun _ hp => nomatch hp }

theorem nReadBase_ne_zero (c : Config) : c.nReadBase ≠ 0 := Nat.ne_zero_of_lt c.ident_lt

theorem nReadExt_ne_zero (c : Config) : c.nReadExt ≠ 0 := Nat.ne_zero_of_lt (c.ident_lt.trans_le c.nReadBase_le)

theorem powerApply_inv (h : d.Inv c i) : (d.powerApply c).Inv c i :=
  { h with
    slots := fun j => by simpa [Driver.powerApply] using h.slots j
    polled := ⟨fun _ => .inl rfl, fun _ => nReadBase_ne_zero c⟩
    readSet := fun _ => rfl
    writeSet := rfl
    cursor := fun _ => Nat.pos_of_ne_zero (nReadBase_ne_zero c)
    pendingPolled := fun hp => absurd rfl hp
    pendingWrite := fun _ hp => nomatch hp
    pendingRead := fun _ hp => nomatch hp }

/-! The engine's operations. -/

theorem choose_inv (h : d.Inv c i) (hm : d.maxReadCount ≠ 0) : d.choose.Inv c i := by
  rcases choose_cases d with ⟨j, hj, hd⟩ | ⟨-, hd⟩ <;> rw [hd]
  · exact
      { h with
        slots := slotsOk_set_dirty h.slots j false
        pendingPolled := fun _ => hm
        pendingWrite := fun k hk => by
          cases hk
          exact (dirtyActive_of_lowestDirty d j hj).1
        pendingRead := fun _ hp => nomatch hp }
  · exact
      { h with
        pendingPolled := fun _ => hm
        pendingWrite := fun _ hp => nomatch hp
        pendingRead := fun k hk => by
          cases hk
          exact h.cursor hm }

theorem choose_pending (d : Driver) : d.choose.pending ≠ .none := by
  rcases choose_cases d with ⟨j, -, hd⟩ | ⟨-, hd⟩ <;> simp [hd]

theorem acceptRead_inv (h : d.Inv c i) (interval : Nat) (rx : List Byte) (k : Nat) :
    (d.acceptRead c interval rx k).Inv c i :=
  { setReadSlot_inv h k _ _ with cursor := fun hm => Nat.mod_lt _ (Nat.pos_of_ne_zero hm) }

theorem judge_inv (h : d.Inv c i) (interval : Nat) (rx : List Byte) : (d.judge c interval rx).Inv c i := by
  unfold Driver.judge
  split
  case h_1 j hp =>
    rcases finishWrite_cases d j rx hp with ⟨-, hd⟩ | ⟨-, hd⟩ <;> rw [hd]
    · exact { h with }
    · exact { h with slots := slotsOk_set_dirty h.slots j true }
  case h_2 k hp =>
    rcases finishRead_cases c interval rx k d hp with ⟨-, hd⟩ | ⟨-, hd⟩ <;> rw [hd]
    · exact acceptRead_inv h interval rx k
    · exact { h with }
  case h_3 => exact h

theorem clearPending_inv (h : d.Inv c i) : ({ d with pending := .none } : Driver).Inv c i :=
  { h with
    pendingPolled := fun hp => absurd rfl hp
    pendingWrite := fun _ hp => nomatch hp
    pendingRead := fun _ hp => nomatch hp }

theorem widen_inv (h : d.Inv c i) (hs : d.state = .initialising) (hp : d.pending = .none) : (d.widen c).Inv c i :=
  { h with
    slots := fun j => by
      simp only [Driver.widen, get_mapSlots]
      split <;> exact h.slots j
    polled := ⟨fun _ => .inl hs, fun _ => nReadExt_ne_zero c⟩
    readSet := fun _ => rfl
    writeSet := rfl
    cursor := fun _ => Nat.pos_of_ne_zero (nReadExt_ne_zero c)
    pendingPolled := fun hn => absurd hp hn
    pendingWrite := fun _ hw => nomatch hp.symm.trans hw
    pendingRead := fun _ hr => nomatch hp.symm.trans hr }

theorem bringUp_inv (h : d.Inv c i) (hp : d.pending = .none) : (d.bringUp c).Inv c i := by
  rcases bringUp_cases c d with hd | ⟨hs, hd | hd⟩ <;> rw [hd]
  · exact h
  · exact { h with polled := ⟨fun _ => .inr rfl, fun _ => h.polled.mpr (.inl hs)⟩ }
  · exact widen_inv h hs hp

theorem bringUp_pending (c : Config) (d : Driver) : (d.bringUp c).pending = d.pending := by
  rcases bringUp_cases c d with hd | ⟨-, hd | hd⟩ <;> rw [hd]
  rfl

theorem done_inv (h : d.Inv c i) (interval : Nat) (rx : List Byte) : (d.done c interval rx).Inv c i :=
  bringUp_inv (clearPending_inv (judge_inv h interval rx)) rfl

theorem done_pending (c : Config) (interval : Nat) (rx : List Byte) (d : Driver) : (d.done c interval rx).pending = .none :=
  bringUp_pending c _

theorem driverNotPresent_inv (h : d.Inv c i) (hp : d.pending = .none) : (d.record .driverNotPresent).Inv c i :=
  { h with
    polled := by simp [Driver.record]
    readSet := fun hm => absurd rfl hm
    cursor := fun hm => absurd rfl hm
    pendingPolled := fun hn => absurd hp hn
    pendingWrite := fun _ hw => nomatch hp.symm.trans hw
    pendingRead := fun _ hr => nomatch hp.symm.trans hr }

theorem remark_inv (h : d.Inv c i) : d.remark.Inv c i := by
  unfold Driver.remark
  split
  · exact { h with slots := slotsOk_set_dirty h.slots _ true }
  · exact h

theorem timeOut_inv (h : d.Inv c i) : d.timeOut.Inv c i := by
  have hu : ({ d.record .transferTimeout with pending := .none } : Driver).Inv c i := clearPending_inv { remark_inv h with }
  unfold Driver.timeOut
  dsimp only
  split
  · exact driverNotPresent_inv hu rfl
  · exact hu

theorem timeOut_pending (d : Driver) : d.timeOut.pending = .none := by rw [timeOut_eq]

end

end Sys2Proof.Machine
end

section
/-! SUPPORT. Everything an instruction that a step runs can do to the block, said once: the parts that only some
instructions reach (`INIT`, `SPIN`, `SHUTDOWN`, `GETACC`) by name, the others by their kind. -/

namespace Sys2Proof.Machine

/-- What an event, a tick or an arriving reply makes of the Transport. -/
inductive Transport.Event (c : Config) (t : Transport) : Transport → Prop
  | lost : Event c t t
  | unit (capture : List Level) : Event c t (t.unitDone c capture)
  | fault : Event c t t.hwError
  | tick (lineIn : Level) (hwErr : Bool) : Event c t (t.tick c lineIn hwErr)

/-- What a direct use of the Transport makes of it (R163, R171, R172). -/
inductive Transport.Direct (c : Config) (t : Transport) : Transport → Prop
  | start {line rc : Nat} {buf : List Byte} {u : Transport} (h : t.start c line buf rc = some u) (draws : Nat) :
      Direct c t { u with draws := draws }
  | check {u : Transport} (h : t.check c = some u) : Direct c t u
  | abort : Direct c t t.abort

/-- What an instruction that a step runs makes of the state. -/
inductive Effect (c : Config) (s : State) : Instr → State → Prop
  | init (n : Word) : Effect c s (.init n) (s.initCmd c n)
  | spin (now : Word) (powered : Bool) : Effect c s (.spin now powered) (s.spinCmd c now powered)
  | shutdown (hr : s.running = true) : Effect c s .shutdown (s.shutDown.answer true 0)
  | getacc (drv : Byte) (keep : Word) :
      Effect c s (.getacc drv keep) (s.onDriver drv fun d => some (d.takeAccum c keep))
  | configure {i : Instr} (drv : Byte) {f : Driver → Option (Driver × Word)}
      (hf : ∀ d d' res, f d = some (d', res) → d.Configured d') : Effect c s i (s.onDriver drv f)
  | direct {i : Instr} {t : Transport} (hr : s.running = false) (ht : s.tr.Direct c t) (res : Word) (rdata : List Byte) :
      Effect c s i ((s.withTr t).answer true res rdata)
  | event {i : Instr} {t : Transport} (ht : s.tr.Event c t) : Effect c s i (s.withTr t)
  | answer {i : Instr} (ok : Bool) (res : Word) (rdata : List Byte) (sampleOut : List Level) :
      Effect c s i (s.answer ok res rdata sampleOut)

section
variable {c : Config} {s : State} {i : Instr}

theorem Effect.refuse : Effect c s i s.refuse := .answer false 0 [] []

theorem onIdleEngine_effect {k : State} (h : s.running = false → Effect c s i k) : Effect c s i (s.onIdleEngine k) := by
  unfold State.onIdleEngine
  split
  · exact .refuse
  · next hr => exact h (Bool.eq_false_of_not_eq_true hr)

theorem startCmd_effect (line wc rc : Nat) (hr : s.running = false) : Effect c s i (s.startCmd c line wc rc) := by
  unfold State.startCmd
  split
  · split
    · next ht => exact .direct hr (.start ht _) 0 []
    · exact .refuse
  · exact .refuse

theorem checkCmd_effect (hr : s.running = false) : Effect c s i (s.checkCmd c) := by
  unfold State.checkCmd
  split
  · next ht => exact .direct hr (.check ht) _ _
  · exact .answer false 0 [] []

theorem issueDirect_effect (buf : List Byte) (hr : s.running = false) : Effect c s i (s.issueDirect c buf) := by
  rcases issueDirect_cases c s buf with h | ⟨t, ht, h⟩ <;> rw [h]
  · exact .refuse
  · exact .direct hr (.start ht _) 0 []

theorem writeReqCmd_effect (r : RegNum) (v : Word) (crc : Byte) (hr : s.running = false) :
    Effect c s i (s.writeReqCmd c r v crc) := by
  rcases writeReqCmd_cases c r v crc s with h | h <;> rw [h]
  · exact .refuse
  · exact issueDirect_effect _ hr

theorem readReqCmd_effect (r : RegNum) (crc : Byte) (hr : s.running = false) : Effect c s i (s.readReqCmd c r crc) := by
  rcases readReqCmd_cases c r crc s with h | h <;> rw [h]
  · exact .refuse
  · exact issueDirect_effect _ hr

/-- A reply is captured as an `EV_UNIT`, or lost. -/
theorem receiveReply_event (c : Config) (bytes : List Byte) (s : State) :
    ∃ t, s.tr.Event c t ∧ s.receiveReply c bytes = s.withTr t := by
  unfold State.receiveReply
  split
  · exact ⟨_, .unit _, rfl⟩
  · exact ⟨s.tr, .lost, rfl⟩

theorem receiveReply_effect (bytes : List Byte) : Effect c s i (s.receiveReply c bytes) := by
  obtain ⟨t, ht, h⟩ := receiveReply_event c bytes s
  rw [h]
  exact .event ht

/-- A command that only reads a driver. -/
theorem query_effect (drv : Byte) (f : Driver → Option Word) :
    Effect c s i (s.onDriver drv fun d => (f d).map fun v => (d, v)) :=
  .configure drv fun d d' res h => by
    obtain ⟨_, _, hd⟩ := Option.map_eq_some_iff.mp h
    cases hd
    exact configured_refl

end

/-- Everything `exec` can do for the instructions that a step runs. -/
theorem exec_effect {i : Instr} {s t : State} (hi : i.hasPattern = true ∨ (∃ capture, i = .evUnit capture) ∨ i = .evHwErr)
    (h : exec i s = .next t) : Effect cfg s i t := by
  cases i
  case init n => cases h; exact .init n
  case spin now powered => cases h; exact .spin now powered
  case shutdown =>
    cases h
    split
    · next hr => exact .shutdown hr
    · exact .refuse
  case getacc drv keep => cases h; exact .getacc drv keep
  case setcur drv mA => cases h; exact .configure drv fun d d' res hd => by cases hd; exact setCurrent_configured _ _ _
  case setms drv m x => cases h; exact .configure drv fun d d' res hd => setMicrosteps_configured hd
  case setsgt drv x => cases h; exact .configure drv fun d d' res hd => by cases hd; exact setStall_configured _ _ _
  case setsgmin drv x => cases h; exact .configure drv fun d d' res hd => by cases hd; exact setStallMin_configured _ _ _
  case setreg drv name v => cases h; exact .configure drv fun d d' res hd => setRaw_configured hd
  case getms drv => cases h; exact query_effect drv fun d => some (microstepAnswer d.microstepShift d.interpolate)
  case getlive drv => cases h; exact query_effect drv fun d => some (d.readSlot cfg cfg.statusSlot).last
  case getreg drv name => cases h; exact query_effect drv fun d => d.getRaw cfg name
  case tStart line wc rc => cases h; exact onIdleEngine_effect (startCmd_effect _ _ _)
  case tCheck => cases h; exact onIdleEngine_effect checkCmd_effect
  case tAbort => cases h; exact onIdleEngine_effect fun hr => .direct hr .abort 0 []
  case writeReq r v crc => cases h; exact onIdleEngine_effect (writeReqCmd_effect r v crc)
  case readReq r crc => cases h; exact onIdleEngine_effect (readReqCmd_effect r crc)
  case ifcntReq => cases h; exact onIdleEngine_effect (issueDirect_effect _)
  case ifcntResp => cases h; exact receiveReply_effect _
  case readResp => cases h; exact receiveReply_effect _
  case encode b => cases h; exact onIdleEngine_effect fun _ => .answer _ _ _ _
  case decode n => cases h; exact onIdleEngine_effect fun _ => .answer _ _ _ _
  case frame b => cases h; exact .answer _ _ _ _
  case evUnit capture => cases h; exact .event (.unit capture)
  case evHwErr => cases h; exact .event .fault
  case encodeBuf | eStart | eDone | eTimeout | getNext => simp [Instr.hasPattern] at hi

end Sys2Proof.Machine
end

section
/-! The invariant of the block: each part of a step keeps it, and so does the step. -/

namespace Sys2Proof.Machine

theorem event_inv {c : Config} {t u : Transport} (h : t.Inv c) (he : t.Event c u) : u.Inv c := by
  cases he with
  | lost => exact h
  | unit capture => exact unitDone_inv h capture
  | fault => exact hwError_inv h
  | tick lineIn hwErr => exact tick_inv h lineIn hwErr

theorem event_sameTransfer {c : Config} {t u : Transport} (he : t.Event c u) : t.SameTransfer u := by
  cases he with
  | lost => exact .refl
  | unit capture => exact unitDone_sameTransfer c capture t
  | fault => exact hwError_sameTransfer t
  | tick lineIn hwErr => exact tick_sameTransfer c lineIn hwErr t

theorem direct_inv {c : Config} {t u : Transport} (h : t.Inv c) (hd : t.Direct c u) : u.Inv c := by
  cases hd with
  | start hs draws => exact (start_inv h hs).withDraws draws
  | check hc => exact check_inv h hc
  | abort => exact abort_inv h

section
variable {c : Config} {s : State} {t : Transport} {i : Nat} {d d' : Driver}

/-! ### The ports and the Transport -/

theorem State.Inv.answer (h : s.Inv c) (ok : Bool) (res : Word) (rdata : List Byte) (sampleOut : List Level) :
    (s.answer ok res rdata sampleOut).Inv c := { h with }

theorem State.Inv.withInQ (h : s.Inv c) (q : List Input) : ({ s with inQ := q } : State).Inv c := { h with }

theorem State.Inv.withPorts (h : s.Inv c) (p : Ports) : ({ s with ports := p } : State).Inv c := { h with }

theorem State.Inv.currentDriver_none (h : s.Inv c) (hr : s.running = false) : s.currentDriver = none := by
  cases hc : s.currentDriver with
  | none => rfl
  | some _ => exact nomatch hr.symm.trans (h.currentInRange _ hc).2

theorem State.Inv.withTr_of_event (h : s.Inv c) (he : s.tr.Event c t) : (s.withTr t).Inv c := by
  obtain ⟨hidle, hline⟩ := event_sameTransfer he
  exact
    { h with
      transport := event_inv h.transport he
      inFlight := fun i hc => ⟨fun hi => (h.inFlight i hc).1 (hidle.mp hi), hline.trans (h.inFlight i hc).2⟩
      engineIdle := fun hr hc => hidle.mpr (h.engineIdle hr hc) }

theorem State.Inv.withTr_of_direct (h : s.Inv c) (hr : s.running = false) (hd : s.tr.Direct c t) : (s.withTr t).Inv c :=
  { h with
    transport := direct_inv h.transport hd
    inFlight := fun _ hc => nomatch (h.currentDriver_none hr).symm.trans hc
    engineIdle := fun hrun => nomatch hr.symm.trans hrun }

/-! ### One driver -/

/-- A driver found in a list of drivers of which one was replaced. -/
theorem getElem?_set_cases {l : List Driver} {j : Nat} {x : Driver} (h : (l.set i d')[j]? = some x) :
    (i = j ∧ x = d') ∨ (i ≠ j ∧ l[j]? = some x) := by
  rw [List.getElem?_set] at h
  split at h
  · next hij =>
    split at h
    · exact .inl ⟨hij, (Option.some.inj h).symm⟩
    · cases h
  · next hij => exact .inr ⟨hij, h⟩

theorem State.Inv.setDriver (h : s.Inv c) (hd : s.drivers[i]? = some d) (hd' : d'.Inv c i) (hp : d'.pending = d.pending) :
    ({ s with drivers := s.drivers.set i d' } : State).Inv c := by
  have hlen : (s.drivers.set i d').length = s.drivers.length := List.length_set
  constructor
  case transport => exact h.transport
  case driver =>
    intro j x hx
    rcases getElem?_set_cases hx with ⟨rfl, rfl⟩ | ⟨-, hx⟩
    · exact hd'
    · exact h.driver j x hx
  case count => simpa only [State.nDrivers, hlen] using h.count
  case current =>
    intro j x hx
    rcases getElem?_set_cases hx with ⟨rfl, rfl⟩ | ⟨-, hx⟩
    · rw [hp]
      exact h.current i d hd
    · exact h.current j x hx
  case currentInRange => simpa only [State.nDrivers, hlen] using h.currentInRange
  case inFlight => exact h.inFlight
  case engineIdle => exact h.engineIdle

theorem State.Inv.onDriver (h : s.Inv c) (drv : Byte) {f : Driver → Option (Driver × Word)}
    (hf : ∀ (i : Nat) (d d' : Driver) (res : Word), d.Inv c i → f d = some (d', res) → d'.Inv c i ∧ d'.pending = d.pending) :
    (s.onDriver drv f).Inv c := by
  rcases onDriver_cases s drv f with hs | ⟨d, d', res, -, hd, hfd, hs⟩ <;> rw [hs]
  · exact h.answer _ _ _ _
  · obtain ⟨hd', hp⟩ := hf _ d d' res (h.driver _ d hd) hfd
    exact (h.setDriver hd hd' hp).answer true res [] []

/-! ### All drivers: `INIT` and power -/

theorem initialise_driver {n : Nat} (h : (s.initialise c n).drivers[i]? = some d) : d = initDriver c i := by
  obtain ⟨j, hj, rfl⟩ := Option.map_eq_some_iff.mp ((List.getElem?_map ..).symm.trans h)
  obtain ⟨_, hji⟩ := List.getElem?_eq_some_iff.mp hj
  rw [← hji, List.getElem_range]

theorem initialise_inv (h : s.Inv c) {n : Nat} (hn : 1 ≤ n) (hmax : n ≤ c.maxDrivers) : (s.initialise c n).Inv c where
  transport := abort_inv h.transport
  driver i d hd := initialise_driver hd ▸ initDriver_inv c i
  count _ := by simp only [State.initialise, State.nDrivers, List.length_map, List.length_range]; omega
  current i d hd := by
    rw [initialise_driver hd]
    exact ⟨fun hc => (nomatch hc), fun hp => absurd rfl hp⟩
  currentInRange _ hc := nomatch hc
  inFlight _ hc := nomatch hc
  engineIdle _ _ := rfl

theorem initCmd_inv (h : s.Inv c) (n : Word) : (s.initCmd c n).Inv c := by
  unfold State.initCmd
  split
  · next hn => exact (initialise_inv h hn.1 hn.2).answer true 0 [] []
  · exact h.answer _ _ _ _

/-- Every driver without power, nothing in flight; the engine may stop. -/
theorem allPowerOff_inv (h : s.Inv c) (ht : t.Inv c) {running : Bool}
    (hr : running = true → s.running = true ∧ t.tstate = .idle) :
    ({ s with
      tr := t, currentDriver := none, drivers := s.drivers.map Driver.powerOff, running := running } : State).Inv c where
  transport := ht
  driver i d hd := by
    obtain ⟨x, hx, rfl⟩ := Option.map_eq_some_iff.mp ((List.getElem?_map ..).symm.trans hd)
    exact powerOff_inv (h.driver i x hx)
  count hrun := by simpa only [State.nDrivers, List.length_map] using h.count (hr hrun).1
  current i d hd := by
    obtain ⟨x, -, rfl⟩ := Option.map_eq_some_iff.mp ((List.getElem?_map ..).symm.trans hd)
    exact ⟨fun hc => (nomatch hc), fun hp => absurd rfl hp⟩
  currentInRange _ hc := nomatch hc
  inFlight _ hc := nomatch hc
  engineIdle hrun _ := (hr hrun).2

theorem shutDown_inv (h : s.Inv c) : s.shutDown.Inv c :=
  allPowerOff_inv h (abort_inv h.transport) fun hr => nomatch hr

theorem losePower_inv (h : s.Inv c) : s.losePower.Inv c := by
  unfold State.losePower
  cases hc : s.currentDriver with
  | some i => exact allPowerOff_inv h (abort_inv h.transport) fun hr => ⟨hr, rfl⟩
  | none => exact allPowerOff_inv h h.transport fun hr => ⟨hr, h.engineIdle hr hc⟩

/-- A driver without power has no transfer in flight (R41, R251). -/
theorem Driver.Inv.pending_of_noPower (h : d.Inv c i) (hs : d.state = .noPower) : d.pending = .none := by
  by_contra hp
  have hpolled := h.polled.mp (h.pendingPolled hp)
  simp [hs] at hpolled

theorem applyPower_inv (h : s.Inv c) : (s.applyPower c).Inv c := by
  have hlen : (s.applyPower c).nDrivers = s.nDrivers := List.length_map _
  have hdriver : ∀ (i : Nat) (d : Driver), (s.applyPower c).drivers[i]? = some d →
      ∃ x, s.drivers[i]? = some x ∧ d.Inv c i ∧ d.pending = x.pending := by
    intro i d hd
    obtain ⟨x, hx, rfl⟩ := Option.map_eq_some_iff.mp ((List.getElem?_map ..).symm.trans hd)
    have hinv := h.driver i x hx
    refine ⟨x, hx, ?_⟩
    split
    · next hs => exact ⟨powerApply_inv hinv, (hinv.pending_of_noPower hs).symm⟩
    · exact ⟨hinv, rfl⟩
  constructor
  case transport => exact h.transport
  case driver =>
    intro i d hd
    obtain ⟨_, _, hinv, _⟩ := hdriver i d hd
    exact hinv
  case count => rw [hlen]; exact h.count
  case current =>
    intro i d hd
    obtain ⟨x, hx, -, hp⟩ := hdriver i d hd
    rw [hp]
    exact h.current i x hx
  case currentInRange => rw [hlen]; exact h.currentInRange
  case inFlight => exact h.inFlight
  case engineIdle => exact h.engineIdle

/-! ### The parts of `SPIN` -/

/-- The current driver's transfer ends: the Transport is idle again and no driver has a pending transfer. -/
theorem retire_inv (h : s.Inv c) (hc : s.currentDriver = some i) (ht : t.Inv c) (hidle : t.tstate = .idle)
    (f : Driver → Driver) (hf : ∀ d : Driver, d.Inv c i → (f d).Inv c i) (hp : ∀ d, (f d).pending = .none) :
    (((s.withTr t).updDriver i f).retire i).Inv c := by
  obtain ⟨hi, hrun⟩ := h.currentInRange i hc
  have hd : (s.withTr t).drivers[i]? = some s.drivers[i] := List.getElem?_eq_getElem hi
  rw [updDriver_eq_set _ i f _ hd]
  constructor
  case transport => exact ht
  case driver =>
    intro j x hx
    rcases getElem?_set_cases hx with ⟨rfl, rfl⟩ | ⟨-, hx⟩
    · exact hf _ (h.driver _ _ hd)
    · exact h.driver j x hx
  case count =>
    intro _
    have hlen : ((s.withTr t).drivers.set i (f s.drivers[i])).length = s.nDrivers := List.length_set
    obtain ⟨hone, hmax, -⟩ := h.count hrun
    simp only [State.nDrivers, retire_drivers, hlen]
    exact ⟨hone, hmax, hi⟩
  case current =>
    intro j x hx
    refine ⟨fun hc => (nomatch hc), fun hpend => ?_⟩
    rcases getElem?_set_cases hx with ⟨-, rfl⟩ | ⟨hij, hx⟩
    · exact absurd (hp _) hpend
    · have hj := (h.current j x hx).mpr hpend
      exact absurd (Option.some.inj (hc.symm.trans hj)) hij
  case currentInRange => exact fun _ hc => nomatch hc
  case inFlight => exact fun _ hc => nomatch hc
  case engineIdle => exact fun _ _ => hidle

theorem poll_inv (h : s.Inv c) (now : Word) : (s.poll c now).Inv c := by
  rcases poll_cases c now s with ⟨-, hs⟩ | ⟨i, hc, hcomplete, t, ht, hs⟩ | ⟨i, hc, -, -, hs⟩ | ⟨-, -, -, -, hs⟩ <;> rw [hs]
  · exact h
  · have hidle : t.tstate = .idle := by
      rw [check_complete c _ hcomplete] at ht
      cases ht
      rfl
    exact retire_inv h hc (check_inv h.transport ht) hidle _ (fun d hd => done_inv hd _ _) fun d => done_pending c _ _ d
  · exact retire_inv h hc (abort_inv h.transport) rfl Driver.timeOut (fun d hd => timeOut_inv hd) timeOut_pending
  · exact h

theorem poll_running (c : Config) (now : Word) (s : State) : (s.poll c now).running = s.running := by
  rcases poll_cases c now s with ⟨-, hs⟩ | ⟨_, -, -, _, -, hs⟩ | ⟨_, -, -, -, hs⟩ | ⟨_, -, -, -, hs⟩ <;> rw [hs] <;> rfl

theorem issue_inv (h : t.Inv c) (line : Nat) (buf : List Byte) : (t.issue c line buf).Inv c := by
  unfold Transport.issue
  cases hs : t.start c line buf maxReadBytes with
  | none => exact h
  | some u => exact start_inv h hs

theorem startNext_inv (h : s.Inv c) (hr : s.running = true) (now : Word) : (s.startNext c now).Inv c := by
  rcases startNext_cases c s now with ⟨-, hs⟩ | ⟨hc, i, d, -, hd, hm, hs⟩ <;> rw [hs]
  · exact h
  have hlen : (s.drivers.set i d.choose).length = s.drivers.length := List.length_set
  constructor
  case transport => exact issue_inv h.transport i _
  case driver =>
    intro j x hx
    rcases getElem?_set_cases hx with ⟨rfl, rfl⟩ | ⟨-, hx⟩
    · exact choose_inv (h.driver _ d hd) hm
    · exact h.driver j x hx
  case count => simpa only [State.nDrivers, hlen] using h.count
  case current =>
    intro j x hx
    rcases getElem?_set_cases hx with ⟨rfl, rfl⟩ | ⟨hij, hx⟩
    · exact ⟨fun _ => choose_pending d, fun _ => rfl⟩
    · refine ⟨fun hj => absurd (Option.some.inj hj) hij, fun hp => ?_⟩
      exact nomatch hc.symm.trans ((h.current j x hx).mpr hp)
  case currentInRange =>
    intro j hj
    cases hj
    obtain ⟨hi, -⟩ := List.getElem?_eq_some_iff.mp hd
    exact ⟨by simpa only [State.nDrivers, hlen] using hi, hr⟩
  case inFlight =>
    intro j hj
    cases hj
    rw [issue_of_idle c s.tr i d (h.engineIdle hr hc)]
    exact ⟨TState.noConfusion, rfl⟩
  case engineIdle => exact fun _ hn => nomatch hn

theorem spin_inv (h : s.Inv c) (hr : s.running = true) (now : Word) (powered : Bool) : (s.spin c now powered).Inv c := by
  unfold State.spin
  split
  · exact startNext_inv (poll_inv (applyPower_inv h) now) ((poll_running c now _).trans hr) now
  · exact losePower_inv h

theorem spinCmd_inv (h : s.Inv c) (now : Word) (powered : Bool) : (s.spinCmd c now powered).Inv c := by
  unfold State.spinCmd
  split
  · next hr => exact (spin_inv h hr now powered).answer true 0 [] []
  · exact h.answer _ _ _ _

/-! ### Instructions and steps -/

theorem effect_inv {j : Instr} {u : State} (h : s.Inv c) (he : Effect c s j u) : u.Inv c := by
  cases he with
  | init n => exact initCmd_inv h n
  | spin now powered => exact spinCmd_inv h now powered
  | shutdown => exact (shutDown_inv h).answer true 0 [] []
  | getacc drv keep =>
    refine h.onDriver drv fun i d d' res hd hf => ?_
    cases hf
    exact ⟨takeAccum_inv hd keep, rfl⟩
  | configure drv hf =>
    refine h.onDriver drv fun i d d' res hd hfd => ?_
    exact ⟨configured_inv hd (hf d d' res hfd), configured_pending (hf d d' res hfd)⟩
  | direct hr ht res rdata => exact (h.withTr_of_direct hr ht).answer true res rdata []
  | event ht => exact h.withTr_of_event ht
  | answer ok res rdata sampleOut => exact h.answer ok res rdata sampleOut

end

/-- Settles O14: the arrival is taken from the queue, and what the step then does keeps the invariant. -/
theorem stepKeepsTheInvariant : Obligations.StepKeepsTheInvariant := by
  unfold Obligations.StepKeepsTheInvariant
  intro s t h hstep
  rcases step_cases s t hstep with rfl | ⟨q, harrival⟩
  · exact h
  have hq := h.withInQ q
  rcases harrival with ⟨i, -, hi, hexec⟩ | rfl | ⟨bytes, rfl⟩ | ⟨lineIn, hwErr, rfl⟩ | ⟨p, rfl⟩
  · exact effect_inv hq (exec_effect hi hexec)
  · exact hq.answer _ _ _ _
  · obtain ⟨u, hu, hreply⟩ := receiveReply_event cfg bytes { s with inQ := q }
    rw [hreply]
    exact hq.withTr_of_event hu
  · exact hq.withTr_of_event (.tick lineIn hwErr)
  · exact hq.withPorts p

end Sys2Proof.Machine
end

section
/-! What a step does to the latched values, and the statement that everything but `INIT` and `GETACC` keeps every bit of them
(R35, R297). -/

namespace Sys2Proof.Machine

/-- Every read slot of `d` is one of `d'`, its latched bits kept. -/
def Driver.KeepsLatches (d d' : Driver) : Prop :=
  ∀ (k : Nat) (x : ReadSlot), d.r[k]? = some x →
    ∃ x', d'.r[k]? = some x' ∧ ∀ b, x.accum.getLsbD b = true → x'.accum.getLsbD b = true

/-- Every driver of `s` is one of `t`, its latched bits kept. -/
def State.KeepsLatches (s t : State) : Prop :=
  ∀ (i : Nat) (d : Driver), s.drivers[i]? = some d → ∃ d', t.drivers[i]? = some d' ∧ d.KeepsLatches d'

section
variable {c : Config} {d d' : Driver}

/-! ### Drivers -/

theorem Driver.KeepsLatches.of_r_eq (h : d'.r = d.r) : d.KeepsLatches d' := fun _ x hx => ⟨x, h ▸ hx, fun _ hb => hb⟩

theorem Driver.KeepsLatches.trans {d'' : Driver} (h : d.KeepsLatches d') (h' : d'.KeepsLatches d'') : d.KeepsLatches d'' := by
  intro k x hx
  obtain ⟨x', hx', hb'⟩ := h k x hx
  obtain ⟨x'', hx'', hb''⟩ := h' k x' hx'
  exact ⟨x'', hx'', fun b hb => hb'' b (hb' b hb)⟩

/-- An accepted read only adds bits to the latch of its slot (R213). -/
theorem acceptRead_keepsLatches (c : Config) (interval : Nat) (rx : List Byte) (k : Nat) (d : Driver) :
    d.KeepsLatches (d.acceptRead c interval rx k) := by
  intro j x hx
  have hslot : (d.acceptRead c interval rx k).r[j]? = (d.r.set k _)[j]? := rfl
  rw [hslot, List.getElem?_set]
  split
  · next hkj =>
    subst hkj
    obtain ⟨hk, -⟩ := List.getElem?_eq_some_iff.mp hx
    rw [if_pos hk]
    refine ⟨_, rfl, fun b hb => ?_⟩
    simp [readSlot_eq c d k x hx, hb]
  · exact ⟨x, hx, fun _ hb => hb⟩

theorem judge_keepsLatches (c : Config) (interval : Nat) (rx : List Byte) (d : Driver) :
    d.KeepsLatches (d.judge c interval rx) := by
  unfold Driver.judge
  split
  case h_1 i hp =>
    rcases finishWrite_cases d i rx hp with ⟨-, hd⟩ | ⟨-, hd⟩ <;> exact .of_r_eq (by rw [hd])
  case h_2 k hp =>
    rcases finishRead_cases c interval rx k d hp with ⟨-, hd⟩ | ⟨-, hd⟩ <;> rw [hd]
    · exact acceptRead_keepsLatches c interval rx k d
    · exact .of_r_eq rfl
  case h_3 => exact .of_r_eq rfl

theorem bringUp_r (c : Config) (d : Driver) : (d.bringUp c).r = d.r := by
  rcases bringUp_cases c d with hd | ⟨-, hd | hd⟩ <;> rw [hd]
  rfl

theorem done_keepsLatches (c : Config) (interval : Nat) (rx : List Byte) (d : Driver) :
    d.KeepsLatches (d.done c interval rx) :=
  (judge_keepsLatches c interval rx d).trans (.of_r_eq (bringUp_r c _))

theorem choose_r (d : Driver) : d.choose.r = d.r := by
  rcases choose_cases d with ⟨j, -, hd⟩ | ⟨-, hd⟩ <;> rw [hd]

theorem timeOut_r (d : Driver) : d.timeOut.r = d.r := by rw [timeOut_eq]

end

/-! ### The block -/

section
variable {c : Config} {s t : State} {i : Nat}

theorem State.KeepsLatches.of_drivers_eq (h : t.drivers = s.drivers) : s.KeepsLatches t :=
  fun _ d hd => ⟨d, h ▸ hd, .of_r_eq rfl⟩

theorem State.KeepsLatches.trans {u : State} (h : s.KeepsLatches t) (h' : t.KeepsLatches u) : s.KeepsLatches u := by
  intro i d hd
  obtain ⟨d', hd', hk⟩ := h i d hd
  obtain ⟨d'', hd'', hk'⟩ := h' i d' hd'
  exact ⟨d'', hd'', hk.trans hk'⟩

theorem State.KeepsLatches.of_map {f : Driver → Driver} (h : t.drivers = s.drivers.map f) (hf : ∀ d : Driver, (f d).r = d.r) :
    s.KeepsLatches t :=
  fun i d hd => ⟨f d, by rw [h, List.getElem?_map, hd]; rfl, .of_r_eq (hf d)⟩

theorem State.KeepsLatches.of_modify {f : Driver → Driver} (h : t.drivers = s.drivers.modify i f)
    (hf : ∀ d : Driver, d.KeepsLatches (f d)) : s.KeepsLatches t := by
  intro j d hd
  rw [h, List.getElem?_modify, hd]
  refine ⟨_, rfl, ?_⟩
  split
  · exact hf d
  · exact .of_r_eq rfl

theorem onDriver_keepsLatches (s : State) (drv : Byte) {f : Driver → Option (Driver × Word)}
    (hf : ∀ d d' res, f d = some (d', res) → d.KeepsLatches d') : s.KeepsLatches (s.onDriver drv f) := by
  rcases onDriver_cases s drv f with hs | ⟨d, d', res, -, hd, hfd, hs⟩ <;> rw [hs]
  · exact .of_drivers_eq rfl
  · intro j x hx
    by_cases hj : drv.toNat = j
    · subst hj
      cases hd.symm.trans hx
      exact ⟨d', List.getElem?_set_self (List.getElem?_eq_some_iff.mp hd).1, hf d d' res hfd⟩
    · exact ⟨x, (List.getElem?_set_ne hj).trans hx, .of_r_eq rfl⟩

theorem poll_keepsLatches (c : Config) (now : Word) (s : State) : s.KeepsLatches (s.poll c now) := by
  rcases poll_cases c now s with ⟨-, hs⟩ | ⟨i, -, -, t, -, hs⟩ | ⟨i, -, -, -, hs⟩ | ⟨-, -, -, -, hs⟩ <;> rw [hs]
  · exact .of_drivers_eq rfl
  · exact .of_modify rfl fun d => done_keepsLatches c _ _ d
  · exact .of_modify rfl fun d => .of_r_eq (timeOut_r d)
  · exact .of_drivers_eq rfl

theorem startNext_keepsLatches (c : Config) (now : Word) (s : State) : s.KeepsLatches (s.startNext c now) := by
  rcases startNext_cases c s now with ⟨-, hs⟩ | ⟨-, i, d, -, hd, -, hs⟩ <;> rw [hs]
  · exact .of_drivers_eq rfl
  · exact .of_modify (congrArg State.drivers (updDriver_eq_set s i Driver.choose d hd)).symm fun x => .of_r_eq (choose_r x)

theorem spin_keepsLatches (c : Config) (now : Word) (powered : Bool) (s : State) : s.KeepsLatches (s.spin c now powered) := by
  unfold State.spin
  split
  · have happly : s.KeepsLatches (s.applyPower c) := .of_map rfl fun d => by split <;> rfl
    exact (happly.trans (poll_keepsLatches c now _)).trans (startNext_keepsLatches c now _)
  · exact .of_map rfl powerOff_r

theorem spinCmd_keepsLatches (c : Config) (now : Word) (powered : Bool) (s : State) :
    s.KeepsLatches (s.spinCmd c now powered) := by
  unfold State.spinCmd
  split
  · exact (spin_keepsLatches c now powered s).trans (.of_drivers_eq rfl)
  · exact .of_drivers_eq rfl

theorem effect_keepsLatches {j : Instr} (he : Effect c s j t) (hinit : ∀ n, j ≠ .init n) (hacc : ∀ drv keep, j ≠ .getacc drv keep) :
    s.KeepsLatches t := by
  cases he with
  | init n => exact absurd rfl (hinit n)
  | getacc drv keep => exact absurd rfl (hacc drv keep)
  | spin now powered => exact spinCmd_keepsLatches c now powered s
  | shutdown => exact .of_map rfl powerOff_r
  | configure drv hf => exact onDriver_keepsLatches s drv fun d d' res hd => .of_r_eq (configured_r (hf d d' res hd))
  | direct | event | answer => exact .of_drivers_eq rfl

end

theorem step_keepsLatches {s t : State} (hstep : step s = .next t)
    (hfetch : ∀ (j : Instr) (s' : State), s.fetch = .run j s' → (∀ n, j ≠ .init n) ∧ ∀ drv keep, j ≠ .getacc drv keep) :
    s.KeepsLatches t := by
  rcases step_cases s t hstep with rfl | ⟨q, harrival⟩
  · exact .of_drivers_eq rfl
  rcases harrival with ⟨j, hj, hi, hexec⟩ | rfl | ⟨bytes, rfl⟩ | ⟨_, _, rfl⟩ | ⟨_, rfl⟩
  · obtain ⟨hinit, hacc⟩ := hfetch j _ hj
    have hq : s.KeepsLatches { s with inQ := q } := .of_drivers_eq rfl
    exact hq.trans (effect_keepsLatches (exec_effect hi hexec) hinit hacc)
  · exact .of_drivers_eq rfl
  · obtain ⟨u, -, hreply⟩ := receiveReply_event cfg bytes { s with inQ := q }
    rw [hreply]
    exact .of_drivers_eq rfl
  · exact .of_drivers_eq rfl
  · exact .of_drivers_eq rfl

/-- Settles O58: a step that runs neither `INIT` nor `GETACC` keeps every latch. -/
theorem latchedBitsStay : Obligations.LatchedBitsStay := by
  unfold Obligations.LatchedBitsStay
  intro s t i k b d x hstep hfetch hd hx hb
  obtain ⟨d', hd', hk⟩ := step_keepsLatches hstep hfetch i d hd
  obtain ⟨x', hx', hb'⟩ := hk k x hx
  exact ⟨d', x', hd', hx', hb' b hb⟩

end Sys2Proof.Machine
end

section
/-! The state after hardware reset, and where the internal operations stop when issued on their own. -/

namespace Sys2Proof.Machine

theorem transportReset_inv (c : Config) : Transport.reset.Inv c :=
  .of_stopped (.inl rfl) rfl rfl (fun hi => absurd rfl hi) List.length_replicate ⟨rfl, Nat.zero_le _⟩

/-- Settles O12: at reset the selected line is an output at level 1 like every other, and nothing has arrived. -/
theorem resetIsQuiet : Obligations.ResetIsQuiet := by
  unfold Obligations.ResetIsQuiet
  exact ⟨rfl, rfl, fun _ => ⟨ite_self _, ite_self _⟩, rfl⟩

/-- Settles O13: at reset there are no drivers and the engine does not run, so only the Transport's invariant is left. -/
theorem resetMeetsTheInvariant : Obligations.ResetMeetsTheInvariant := by
  unfold Obligations.ResetMeetsTheInvariant
  intro c
  exact
    { transport := transportReset_inv c
      driver := fun _ _ hd => nomatch hd
      count := fun hr => nomatch hr
      current := fun _ _ hd => nomatch hd
      currentInRange := fun _ hc => nomatch hc
      inFlight := fun _ hc => nomatch hc
      engineIdle := fun hr => nomatch hr }

/-- With nothing pending, `E_DONE` is the bring-up test (R216, R217). -/
theorem done_of_not_pending (c : Config) (interval : Nat) (rx : List Byte) (d : Driver) (hp : d.pending = .none) :
    d.done c interval rx = d.bringUp c := by
  obtain ⟨⟩ := d
  cases hp
  rfl

/-- Settles O39: the cases of `onInternal`, and for `E_DONE` on a driver that exists those of its pending transfer. -/
theorem whereInternalOperationsStop : Obligations.WhereInternalOperationsStop := by
  unfold Obligations.WhereInternalOperationsStop
  intro s d
  refine ⟨fun hr => ?stopped, fun hr hd => ?missing, fun drv hr hd => ⟨fun hp hv => ?undelivered, fun hp => ?nothingPending⟩⟩
  case stopped =>
    exact ⟨onInternal_stopped s d _ hr, onInternal_stopped s d _ hr, onInternal_stopped s d _ hr,
      if_neg (by simp [hr])⟩
  case missing => exact ⟨onInternal_none s d _ hr hd, onInternal_none s d _ hr hd, onInternal_none s d _ hr hd⟩
  case undelivered => exact (onInternal_some s d drv _ hr hd).trans (if_pos ⟨hp, hv⟩)
  case nothingPending =>
    refine (onInternal_some s d drv _ hr hd).trans ((if_neg fun h => h.1 hp).trans ?_)
    rw [State.finishTransfer, updDriver_eq_set s d _ drv hd, done_of_not_pending cfg _ _ drv hp]

end Sys2Proof.Machine
end

section
/-! Who changes what the engine keeps about its drivers: `SPIN`, `INIT` and `SHUTDOWN` only; an event or a tick changes the
Transport alone (R88, R321). -/

namespace Sys2Proof.Machine

/-- What the engine keeps about its service of a driver: what it read, its counters, its bring-up, its transfer in flight
and its polling (R34, R37 to R41). -/
def Driver.service (d : Driver) :=
  (d.r.map ReadSlot.last, d.numReads, d.numWrites, d.readErrors, d.writeErrors, d.numTimeouts, d.lastIfCount, d.state,
    d.pending, d.nWrite, d.maxReadCount, d.readCursor, d.readCycleDone, d.widened)

/-- What the engine keeps about the bus and all its drivers (R21 to R25). -/
def State.service (s : State) :=
  (s.running, s.currentDriver, s.lastServiced, s.transferStartTime, s.drivers.map Driver.service)

/-- Replacing an element by one with the same image is not seen in the images. -/
theorem map_set_eq_map {α β : Type} {f : α → β} {l : List α} {i : Nat} {a b : α} (h : l[i]? = some a) (hb : f b = f a) :
    (l.set i b).map f = l.map f := by
  have hi : (l.map f)[i]? = some (f a) := by rw [List.getElem?_map, h, Option.map_some]
  obtain ⟨_, hself⟩ := List.getElem?_eq_some_iff.mp hi
  rw [List.map_set, hb, ← hself, List.set_getElem_self]

section
variable {c : Config} {s t : State} {d d' : Driver}

/-! ### Drivers -/

theorem configured_service (h : d.Configured d') : d'.service = d.service := by
  induction h with
  | settings => rfl
  | update _ j v ih => exact ih

/-- `GETACC` clears latched bits and leaves what was last read (R296). -/
theorem takeAccum_map_last (c : Config) (keep : Word) (d : Driver) :
    (d.takeAccum c keep).1.r.map ReadSlot.last = d.r.map ReadSlot.last := by
  unfold Driver.takeAccum
  rw [setReadSlot_r]
  cases hx : d.r[c.statusSlot]? with
  | none => rw [List.set_eq_of_length_le (List.getElem?_eq_none_iff.mp hx)]
  | some x =>
    have hlast : (d.readSlot c c.statusSlot).last = x.last := by rw [readSlot_eq c d _ x hx]
    exact map_set_eq_map hx hlast

theorem takeAccum_service (c : Config) (keep : Word) (d : Driver) : (d.takeAccum c keep).1.service = d.service :=
  congrArg (fun lasts => (lasts, d.service.2)) (takeAccum_map_last c keep d)

/-! ### The block -/

theorem onDriver_service (s : State) (drv : Byte) {f : Driver → Option (Driver × Word)}
    (hf : ∀ d d' res, f d = some (d', res) → d'.service = d.service) : (s.onDriver drv f).service = s.service := by
  rcases onDriver_cases s drv f with hs | ⟨d, d', res, -, hd, hfd, hs⟩ <;> rw [hs]
  · rfl
  · have hdrivers : (s.drivers.set drv.toNat d').map Driver.service = s.drivers.map Driver.service :=
      map_set_eq_map hd (hf d d' res hfd)
    simp only [State.service, hdrivers]

theorem effect_service {j : Instr} (he : Effect c s j t) (hinit : ∀ n, j ≠ .init n) (hspin : ∀ now p, j ≠ .spin now p)
    (hshut : j ≠ .shutdown) : t.service = s.service := by
  cases he with
  | init n => exact absurd rfl (hinit n)
  | spin now powered => exact absurd rfl (hspin now powered)
  | shutdown => exact absurd rfl hshut
  | getacc drv keep =>
    refine onDriver_service s drv fun d d' res hd => ?_
    cases hd
    exact takeAccum_service c keep d
  | configure drv hf => exact onDriver_service s drv fun d d' res hd => configured_service (hf d d' res hd)
  | direct | event | answer => rfl

theorem nDrivers_eq_of_service (h : t.service = s.service) : t.nDrivers = s.nDrivers := by
  simpa [State.nDrivers, State.service] using congrArg (fun v => v.2.2.2.2.length) h

theorem driver_service_eq {i : Nat} (h : t.service = s.service) (hd : s.drivers[i]? = some d)
    (hd' : t.drivers[i]? = some d') : d'.service = d.service := by
  simpa [State.service, hd, hd'] using congrArg (fun v => v.2.2.2.2[i]?) h

end

theorem step_service {s t : State} (hstep : step s = .next t)
    (hfetch : ∀ (j : Instr) (s' : State), s.fetch = .run j s' →
      (∀ n, j ≠ .init n) ∧ (∀ now p, j ≠ .spin now p) ∧ j ≠ .shutdown) : t.service = s.service := by
  rcases step_cases s t hstep with rfl | ⟨q, harrival⟩
  · rfl
  rcases harrival with ⟨j, hj, hi, hexec⟩ | rfl | ⟨bytes, rfl⟩ | ⟨_, _, rfl⟩ | ⟨_, rfl⟩
  · obtain ⟨hinit, hspin, hshut⟩ := hfetch j _ hj
    have htaken : t.service = ({ s with inQ := q } : State).service :=
      effect_service (exec_effect hi hexec) hinit hspin hshut
    exact htaken
  · rfl
  · obtain ⟨u, -, hreply⟩ := receiveReply_event cfg bytes { s with inQ := q }
    rw [hreply]
    rfl
  · rfl
  · rfl

/-- An event or a tick is taken from the queue and changes the Transport (R321). -/
theorem step_of_event {s t : State} {rest : List Input} (hstep : step s = .next t)
    (hq : (∃ capture, s.inQ = .evUnit capture :: rest) ∨ s.inQ = .evHwErr :: rest ∨
      ∃ lineIn hwErr, s.inQ = .tick lineIn hwErr :: rest) :
    ∃ tr : Transport, t = { s with inQ := rest, tr := tr } := by
  rcases hq with ⟨capture, hq⟩ | hq | ⟨lineIn, hwErr, hq⟩
  · have hnext := (step_of_fetch_run (fetch_of_evUnit hq)).symm.trans hstep
    exact ⟨_, (Host.Outcome.next.inj hnext).symm⟩
  · have hnext := (step_of_fetch_run (fetch_of_evHwErr hq)).symm.trans hstep
    exact ⟨_, (Host.Outcome.next.inj hnext).symm⟩
  · have hnext := (step_of_fetch_settled (fetch_of_tick hq)).symm.trans hstep
    exact ⟨_, (Host.Outcome.next.inj hnext).symm⟩

/-- Settles O60: of what an instruction can do, only `INIT`, `SPIN` and `SHUTDOWN` touch the service of the drivers. -/
theorem onlySpinServesDrivers : Obligations.OnlySpinServesDrivers := by
  unfold Obligations.OnlySpinServesDrivers
  intro s t hstep
  refine ⟨fun hfetch => ?service, fun rest hq => step_of_event hstep hq⟩
  have h := step_service hstep hfetch
  have hbus := h
  simp only [State.service, Prod.mk.injEq] at hbus
  obtain ⟨hrunning, hcurrent, hlast, hstart, -⟩ := hbus
  refine ⟨hrunning, hcurrent, hlast, hstart, nDrivers_eq_of_service h, fun i d d' hd hd' => ?_⟩
  simpa only [Driver.service, Prod.mk.injEq] using driver_service_eq h hd hd'

end Sys2Proof.Machine
end

section
/-! `CRC8`: every step of the CRC register can be undone, so two registers that differ stay different (R113, R114). -/

namespace Sys2Proof.Machine

/-- One shift of the CRC register undone: bit 0 tells whether the polynomial was added (R113). -/
def crcUnshift (c : Byte) : Byte := if c.getLsbD 0 then ((c ^^^ crcPoly) >>> 1) ||| 0x80 else c >>> 1

theorem crcUnshift_crcShift (c : Byte) : crcUnshift (crcShift c) = c := by
  revert c
  decide

theorem crcShifts_injective (n : Nat) : Function.Injective (crcShifts n) := by
  induction n with
  | zero => exact Function.injective_id
  | succ n ih => exact ih.comp (Function.LeftInverse.injective crcUnshift_crcShift)

theorem crcShifts_zero (n : Nat) : crcShifts n 0 = 0 := by
  induction n with
  | zero => rfl
  | succ n ih => exact ih

@[simp] theorem crcByte_inj_register {c c' x : Byte} : crcByte c x = crcByte c' x ↔ c = c' := by
  rw [crcByte, crcByte, (crcShifts_injective 8).eq_iff, BitVec.xor_left_inj]

@[simp] theorem crcByte_inj_byte {c x x' : Byte} : crcByte c x = crcByte c x' ↔ x = x' := by
  rw [crcByte, crcByte, (crcShifts_injective 8).eq_iff, BitVec.xor_right_inj]

/-- The register after the byte it holds is zero (R114). -/
theorem crcByte_self (c : Byte) : crcByte c c = 0 := by
  rw [crcByte, BitVec.xor_self]
  exact crcShifts_zero 8

/-- The same bytes after two registers that differ. -/
theorem foldl_crcByte_inj {bytes : List Byte} {c c' : Byte} :
    bytes.foldl crcByte c = bytes.foldl crcByte c' ↔ c = c' := by
  induction bytes generalizing c c' with
  | nil => rfl
  | cons x bytes ih => rw [List.foldl_cons, List.foldl_cons, ih, crcByte_inj_register]

/-- One byte replaced by another changes the register. -/
theorem foldl_crcByte_set_ne {bytes : List Byte} {i : Nat} (hi : i < bytes.length) {y : Byte} (hy : y ≠ bytes[i]) (c : Byte) :
    (bytes.set i y).foldl crcByte c ≠ bytes.foldl crcByte c := by
  induction bytes generalizing i c with
  | nil => exact absurd hi (Nat.not_lt_zero i)
  | cons x bytes ih =>
    cases i with
    | zero =>
      intro h
      rw [List.set_cons_zero, List.foldl_cons, List.foldl_cons, foldl_crcByte_inj, crcByte_inj_byte] at h
      exact hy h
    | succ i => exact ih (Nat.lt_of_succ_lt_succ hi) hy _

/-- Flipping a bit of a byte changes the byte. -/
theorem xor_bit_ne (x : Byte) {j : Nat} (hj : j < 8) : x ^^^ (1#8 <<< j) ≠ x := by
  intro h
  have hbit := congrArg (BitVec.getLsbD · j) h
  simp [hj] at hbit

/-- Settles O5: a flipped bit is a replaced byte; the appended byte is the one the register holds. -/
theorem crcDetectsBitFlips : Obligations.CrcDetectsBitFlips := by
  unfold Obligations.CrcDetectsBitFlips
  refine ⟨fun bytes i j hi hj => foldl_crcByte_set_ne hi (xor_bit_ne _ hj) crcInit, fun bytes => ?_⟩
  rw [crc8, List.foldl_append]
  exact crcByte_self (crc8 bytes)

/-- Settles O6, by running the register. -/
theorem crcKnownValues : Obligations.CrcKnownValues := by
  unfold Obligations.CrcKnownValues
  decide +kernel

end Sys2Proof.Machine
end

section
/-! Encoding and decoding agree: each encoded form is read back, and what is read is written as it stood (R100, R107 to R111,
R125 to R127). -/

namespace Sys2Proof

open Sys2Proof.Machine

/-! ### The upper payload bytes of an `IFCNT_RESP` -/

/-- A 24-bit value is rebuilt from its bytes (R109). -/
theorem append_extract24 (x : BitVec 24) : x.extractLsb' 16 8 ++ x.extractLsb' 8 8 ++ x.extractLsb' 0 8 = x := by
  ext i hi
  simp only [BitVec.getElem_append, BitVec.getElem_extractLsb']
  rw [← BitVec.getLsbD_eq_getElem hi]
  split_ifs <;> (congr 1; omega)

/-- The bytes of a 24-bit value built from bytes (R109). -/
theorem extract24_append (b2 b1 b0 : Byte) :
    (b2 ++ b1 ++ b0).extractLsb' 16 8 = b2 ∧ (b2 ++ b1 ++ b0).extractLsb' 8 8 = b1 ∧
      (b2 ++ b1 ++ b0).extractLsb' 0 8 = b0 :=
  ⟨(extract_append_high (b2 ++ b1) b0 8 8).trans (extract_append_left b2 b1),
    (extract_append_high (b2 ++ b1) b0 0 8).trans (extract_append_right b2 b1), extract_append_right (b2 ++ b1) b0⟩

/-! ### What each datagram decodes to -/

theorem decodeDatagram_ifcntReq :
    decodeDatagram [syncByte, slaveAddr, readRegByte regIfcnt, ifcntReqCrc] = .ok .ifcntReq := by
  decide

/-- A read request of another register than the interface counter is no `IFCNT_REQ` (R108, R110). -/
theorem decodeDatagram_readReq {r : RegNum} (hr : r ≠ regIfcnt) (crc : Byte) :
    decodeDatagram [syncByte, slaveAddr, readRegByte r, crc] = .ok (.readReq r crc) := by
  have hbyte : readRegByte r ≠ readRegByte regIfcnt := fun h =>
    hr (by simpa [regOfByte_readRegByte] using congrArg regOfByte h)
  simp [decodeDatagram, readRegByte_msb, hbyte, regOfByte_readRegByte]

theorem decodeDatagram_writeReq (r : RegNum) (v : Word) (crc : Byte) :
    decodeDatagram ([syncByte, slaveAddr, writeRegByte r] ++ bytesBe v ++ [crc]) = .ok (.writeReq r v crc) := by
  simp [decodeDatagram, bytesBe, writeRegByte_msb, regOfByte_writeRegByte, be32_bytes]

/-- The register byte of the interface counter has bit 7 clear, so its response is no `WRITE_REQ` (R107, R109). -/
theorem decodeDatagram_ifcntResp (b0 b1 : Byte) (hi : BitVec 24) (n crc : Byte) :
    decodeDatagram [b0, b1, readRegByte regIfcnt, hi.extractLsb' 16 8, hi.extractLsb' 8 8, hi.extractLsb' 0 8, n, crc] =
      .ok (.ifcntResp b0 b1 hi n crc) := by
  simp [decodeDatagram, readRegByte_msb, append_extract24]

/-- The second byte of a response differs from that of a request (R107, R111). -/
theorem decodeDatagram_readResp {reg : Byte} (hreg : reg ≠ readRegByte regIfcnt) (v : Word) (crc : Byte) :
    decodeDatagram ([syncByte, masterAddr, reg] ++ bytesBe v ++ [crc]) = .ok (.readResp reg v crc) := by
  have haddr : masterAddr ≠ slaveAddr := by decide
  simp [decodeDatagram, bytesBe, haddr, hreg, be32_bytes]

/-! ### Decoding what was encoded -/

/-- `i` has an encoding, which is read back if `i` is well-formed. -/
def ReadsBack (i : Instr) : Prop := ∃ w : Wire, encode i = some w ∧ (i.wf = true → decode w = .ok i)

/-- A command is read back if its fields are (R125, R126). -/
theorem readsBack_of_fields {i : Instr} {op drv : Byte} {a b : Word} (he : encode i = some (.cmd (cmdWord op drv a b)))
    (hd : decodeFields op drv a b = .ok i) : ReadsBack i :=
  ⟨_, he, fun _ => (decode_cmdWord op drv a b).trans hd⟩

theorem readsBack_of_datagram {i : Instr} {bytes : List Byte} (he : encode i = some (.datagram bytes))
    (hd : i.wf = true → decodeDatagram bytes = .ok i) : ReadsBack i :=
  ⟨_, he, hd⟩

/-- Every instruction with a bit pattern is read back (R131). -/
theorem readsBack_of_hasPattern {i : Instr} (h : i.hasPattern = true) : ReadsBack i := by
  cases i
  case encodeBuf | evUnit | evHwErr | eStart | eDone | eTimeout | getNext => cases h
  case spin now powered => exact readsBack_of_fields rfl (congrArg (fun x => Except.ok (Instr.spin now x)) (flagField_bit powered))
  case setms drv m x => exact readsBack_of_fields rfl (congrArg (fun x => Except.ok (Instr.setms drv m x)) (flagField_bit x))
  case encode b => exact readsBack_of_fields rfl (congrArg (fun x => Except.ok (Instr.encode x)) (extract_append_right 0#24 b))
  case frame b => exact ⟨_, rfl, fun _ => decodeFrame_frame b⟩
  case ifcntReq => exact readsBack_of_datagram rfl fun _ => decodeDatagram_ifcntReq
  case writeReq r v crc => exact readsBack_of_datagram rfl fun _ => decodeDatagram_writeReq r v crc
  case ifcntResp b0 b1 hi n crc => exact readsBack_of_datagram rfl fun _ => decodeDatagram_ifcntResp b0 b1 hi n crc
  case readReq r crc =>
    refine readsBack_of_datagram rfl fun hwf => decodeDatagram_readReq ?_ crc
    simp only [Instr.wf, Bool.and_eq_true, bne_iff_ne] at hwf
    exact hwf.1
  case readResp reg v crc =>
    refine readsBack_of_datagram rfl fun hwf => decodeDatagram_readResp ?_ v crc
    simp only [Instr.wf, Bool.and_eq_true, bne_iff_ne] at hwf
    exact hwf.2
  all_goals exact readsBack_of_fields rfl rfl

/-- Settles O7. -/
theorem decodeEncodeAgree : Obligations.DecodeEncodeAgree := by
  unfold Obligations.DecodeEncodeAgree
  exact fun i h => readsBack_of_hasPattern h

/-! ### Encoding what was decoded -/

/-- A 4-byte datagram that decodes is written as it stood (R108, R110). -/
theorem encode_of_decode4 {b0 b1 b2 b3 : Byte} {i : Instr} (h : decodeDatagram [b0, b1, b2, b3] = .ok i) :
    encode i = some (.datagram [b0, b1, b2, b3]) := by
  simp only [decodeDatagram] at h
  split_ifs at h with hreq hifcnt
  · obtain ⟨rfl, rfl, -⟩ := hreq
    obtain ⟨rfl, rfl⟩ := hifcnt
    cases h
    rfl
  · obtain ⟨rfl, rfl, hmsb⟩ := hreq
    cases h
    rw [encode, readRegByte_regOfByte b2 hmsb]

/-- An 8-byte datagram that decodes is written as it stood (R107, R109, R111). -/
theorem encode_of_decode8 {b0 b1 b2 b3 b4 b5 b6 b7 : Byte} {i : Instr}
    (h : decodeDatagram [b0, b1, b2, b3, b4, b5, b6, b7] = .ok i) :
    encode i = some (.datagram [b0, b1, b2, b3, b4, b5, b6, b7]) := by
  simp only [decodeDatagram] at h
  split_ifs at h with hwrite hifcnt hread
  · obtain ⟨rfl, rfl, hmsb⟩ := hwrite
    cases h
    rw [encode, writeRegByte_regOfByte b2 hmsb, bytesBe_be32]
    rfl
  · subst hifcnt
    cases h
    obtain ⟨h3, h4, h5⟩ := extract24_append b3 b4 b5
    rw [encode, h3, h4, h5]
  · obtain ⟨rfl, rfl⟩ := hread
    cases h
    rw [encode, bytesBe_be32]
    rfl

theorem encode_of_decodeDatagram {bytes : List Byte} {i : Instr} (h : decodeDatagram bytes = .ok i) :
    encode i = some (.datagram bytes) := by
  match bytes with
  | [_, _, _, _] => exact encode_of_decode4 h
  | [_, _, _, _, _, _, _, _] => exact encode_of_decode8 h
  | [] | [_] | [_, _] | [_, _, _] | [_, _, _, _, _] | [_, _, _, _, _, _] | [_, _, _, _, _, _, _]
  | _ :: _ :: _ :: _ :: _ :: _ :: _ :: _ :: _ :: _ => cases h

/-- Ten bits with a start and a stop bit are the frame of the eight between them (R100). -/
theorem frame_of_bits {f : BitVec 10} (h0 : f.getLsbD 0 = false) (h9 : f.getLsbD 9 = true) :
    1#1 ++ f.extractLsb' 1 8 ++ 0#1 = f := by
  ext i hi
  simp only [BitVec.getElem_append, BitVec.getElem_extractLsb']
  rw [← BitVec.getLsbD_eq_getElem hi]
  split_ifs with hstart hdata
  · obtain rfl : i = 0 := by omega
    simpa using h0.symm
  · congr 1
    omega
  · obtain rfl : i = 9 := by omega
    simpa using h9.symm

theorem encode_of_decodeFrame {f : BitVec 10} {i : Instr} (h : decodeFrame f = .ok i) : encode i = some (.frame f) := by
  unfold decodeFrame at h
  split_ifs at h with hbits
  obtain ⟨h0, h9⟩ := hbits
  cases h
  rw [encode, frame_of_bits h0 h9]

/-- Settles O8. -/
theorem encodeDecodeAgree : Obligations.EncodeDecodeAgree := by
  unfold Obligations.EncodeDecodeAgree
  intro w i hcmd h
  cases w with
  | cmd x => exact absurd rfl (hcmd x)
  | datagram bytes => exact encode_of_decodeDatagram h
  | frame f => exact encode_of_decodeFrame h

/-- Settles O9, by decoding each word. -/
theorem wordsOfTheSpec : Obligations.WordsOfTheSpec := by
  unfold Obligations.WordsOfTheSpec
  decide

end Sys2Proof
end

section
/-! Commands that are refused: reserved codes, engine commands outside their conditions, direct commands while the engine
runs (R126, R128). -/

namespace Sys2Proof.Machine

/-! ### Reserved codes -/

/-- The command codes of R126. -/
abbrev commandCodes : List Nat :=
  [0x01, 0x02, 0x03, 0x10, 0x11, 0x12, 0x13, 0x14, 0x15, 0x16, 0x17, 0x18, 0x20, 0x21, 0x22, 0x30, 0x31]

theorem decodeFields_reserved {op : Byte} (h : op.toNat ∉ commandCodes) (drv : Byte) (a b : Word) :
    decodeFields op drv a b = .error (.reservedOp op) := by
  unfold decodeFields
  split
  case h_18 => rfl
  all_goals exact absurd h (by simp [*])

/-- The bits of a command word, presented as a word of its width, are that command word (R125). -/
theorem wireOf_cmd (w : CmdWord) : wireOf 80 w.toNat = some (.cmd w) := by
  simpa [wireOf] using w.isLt

theorem fetchWord_of_reserved {w : CmdWord} (h : (cmdOp w).toNat ∉ commandCodes) (s : State) :
    s.fetchWord 80 w.toNat = .settled s.refuse := by
  have hd : decode (.cmd w) = .error (.reservedOp (cmdOp w)) := decodeFields_reserved h _ _ _
  simp only [State.fetchWord, wireOf_cmd, hd, State.rejectWord]

/-- Settles O10: the word is fetched and rejected, and the step is the refusal. -/
theorem reservedCodeRefused : Obligations.ReservedCodeRefused := by
  unfold Obligations.ReservedCodeRefused
  intro s w rest h
  exact step_of_fetch_settled ((fetch_of_word rfl).trans (fetchWord_of_reserved h _))

/-! ### Engine commands -/

/-- Every command with a driver operand acts through `State.onDriver`, which makes the refusals of R128. -/
theorem exec_of_driverOperand {i : Instr} {d : Byte} (h : driverOperand i = some d) (s : State) :
    ∃ f, exec i s = .next (s.onDriver d f) := by
  cases i <;> cases h <;> exact ⟨_, rfl⟩

theorem exec_driver_refused {i : Instr} {d : Byte} {s : State} (h : driverOperand i = some d)
    (hs : s.running = false ∨ s.nDrivers ≤ d.toNat) : exec i s = .next s.refuse := by
  obtain ⟨f, hf⟩ := exec_of_driverOperand h s
  rw [hf, onDriver_eq_refuse]
  exact hs.imp_right fun hd => .inl (List.getElem?_eq_none hd)

theorem exec_spin_stopped {s : State} (hr : s.running = false) (now : Word) (powered : Bool) :
    exec (.spin now powered) s = .next s.refuse := by
  simp [exec, execSpin, State.spinCmd, hr]

theorem exec_shutdown_stopped {s : State} (hr : s.running = false) : exec .shutdown s = .next s.refuse := by
  simp [exec, execShutdown, hr]

/-- Settles O27. -/
theorem engineCommandsRefused : Obligations.EngineCommandsRefused := by
  unfold Obligations.EngineCommandsRefused
  rintro s i (⟨hr, hi⟩ | ⟨d, hd, hrange⟩)
  · rcases hi with ⟨now, powered, rfl⟩ | rfl | hi
    · exact exec_spin_stopped hr now powered
    · exact exec_shutdown_stopped hr
    · obtain ⟨d, hd⟩ := Option.isSome_iff_exists.mp hi
      exact exec_driver_refused hd (.inl hr)
  · exact exec_driver_refused hd (.inr hrange)

/-! ### Direct commands -/

theorem onIdleEngine_running {s : State} (hr : s.running = true) (k : State) : s.onIdleEngine k = s.refuse := if_pos hr

theorem onIdleEngine_stopped {s : State} (hr : s.running = false) (k : State) : s.onIdleEngine k = k := by
  simp [State.onIdleEngine, hr]

/-- Settles O26: each of the five acts through `State.onIdleEngine`. -/
theorem directCommandsRefusedWhileRunning : Obligations.DirectCommandsRefusedWhileRunning := by
  unfold Obligations.DirectCommandsRefusedWhileRunning
  intro s i hr hi
  have hrefuse (k : State) : Host.Outcome.next (s.onIdleEngine k) = (.next s.refuse : Host.Outcome State Fault Refusal) :=
    congrArg _ (onIdleEngine_running hr k)
  rcases hi with ⟨line, wc, rc, rfl⟩ | rfl | rfl | ⟨b, rfl⟩ | ⟨n, rfl⟩ <;> exact hrefuse _

end Sys2Proof.Machine
end

section
/-! A request datagram that arrives as a word (R107, R108, R110, R112, R163). -/

namespace Sys2Proof.Machine

/-- What is left when the request `buf` has been issued from `s` with 8 bytes to read: the Transport as R163 gives it, on a
line of the platform, and the answer. -/
def Issued (c : Config) (s : State) (buf : List Byte) (o : Host.Outcome State Fault Refusal) : Prop :=
  ∃ t : Transport, o = .next { s with tr := t, reply := { ok := true, res := 0, rdata := [], sampleOut := [] } } ∧
    t.txBuf = buf ++ s.tr.txBuf.drop buf.length ∧ t.txCount = buf.length ∧ t.rxCount = 8 ∧ t.lineSel < c.platformLines ∧
    t.txQueued = min c.preloadBytes buf.length ∧ t.lineDir = .output ∧ t.lineLevel = true ∧ t.sampleCount = 0 ∧
    t.tstate = .writing ∧ t.rxBuf = s.tr.rxBuf ∧ t.rxDecoded = s.tr.rxDecoded

section
variable {s : State} (hr : s.running = false) (hs : s.tr.tstate = .idle ∨ s.tr.tstate = .complete ∨ s.tr.tstate = .error)
include hr hs

theorem issueDirect_issued (c : Config) {buf : List Byte} (hb : 1 ≤ buf.length) (hb' : buf.length ≤ 12) :
    Issued c s buf (.next (s.onIdleEngine (s.issueDirect c buf))) := by
  rw [onIdleEngine_stopped hr, issueDirect_eq c s buf hs hb hb']
  exact ⟨_, rfl, rfl, rfl, rfl, someLine_lt c s, rfl, rfl, rfl, rfl, rfl, rfl, rfl⟩

theorem execWriteReq_issued {r : RegNum} (hreg : writesReg cfg r = true) (v : Word) (crc : Byte) :
    Issued cfg s (writeTransferBytes r v crc) (exec (.writeReq r v crc) s) := by
  have hcmd : s.writeReqCmd cfg r v crc = s.issueDirect cfg (writeTransferBytes r v crc) := if_pos hreg
  rw [exec, execWriteReq, hcmd]
  exact issueDirect_issued hr hs cfg (Nat.le_add_left 1 11) (Nat.le_refl 12)

theorem execReadReq_issued {r : RegNum} (hreg : readsReg cfg r = true) (crc : Byte) :
    Issued cfg s (readReqBytes r crc) (exec (.readReq r crc) s) := by
  have hcmd : s.readReqCmd cfg r crc = s.issueDirect cfg (readReqBytes r crc) := if_pos hreg
  rw [exec, execReadReq, hcmd]
  exact issueDirect_issued hr hs cfg (Nat.le_add_left 1 3) (Nat.le_add_right 4 8)

theorem execIfcntReq_issued : Issued cfg s ifcntReqBytes (exec .ifcntReq s) :=
  issueDirect_issued hr hs cfg (Nat.le_add_left 1 3) (Nat.le_add_right 4 8)

end

/-- A write of a register outside `WREG` (R117). -/
theorem writeReqCmd_refused {c : Config} {r : RegNum} (hreg : ∀ i, c.wreg i ≠ r) (v : Word) (crc : Byte) (s : State) :
    s.writeReqCmd c r v crc = s.refuse := by
  refine if_neg fun h => ?_
  obtain ⟨i, hi⟩ := (writesReg_iff c r).mp h
  exact hreg i hi

/-- A read of a register outside `RREG` that is not the interface counter (R117). -/
theorem readReqCmd_refused {c : Config} {r : RegNum} (hifcnt : r ≠ 0x02) (hreg : ∀ k, k < c.nReadExt → c.rreg k ≠ r)
    (crc : Byte) (s : State) : s.readReqCmd c r crc = s.refuse := by
  refine if_neg fun h => ?_
  rcases (readsReg_iff c r).mp h with h | ⟨k, hk, h⟩
  · exact hifcnt h
  · exact hreg k hk h

/-- Settles O55: each request is issued with its bytes, or refused for its register. -/
theorem requestsAreIssued : Obligations.RequestsAreIssued := by
  unfold Obligations.RequestsAreIssued
  intro s r v crc hr hs
  refine ⟨fun hreg => ?write, fun hreg => ?writeRefused, cfg.wreg_ne_ifcnt, fun hreg => ?read, ?readCmd,
    fun c hifcnt hreg => ?readRefused, ?ifcnt⟩
  case write => exact execWriteReq_issued hr hs ((writesReg_iff cfg r).mpr hreg) v crc
  case writeRefused => rw [exec, execWriteReq, onIdleEngine_stopped hr, writeReqCmd_refused hreg]; rfl
  case read => exact execReadReq_issued hr hs ((readsReg_iff cfg r).mpr hreg) crc
  case readCmd => rw [exec, execReadReq, onIdleEngine_stopped hr]
  case readRefused => exact readReqCmd_refused hifcnt hreg crc s
  case ifcnt => exact execIfcntReq_issued hr hs

end Sys2Proof.Machine
end

section
/-! The decoder reads back what the encoder wrote: the passes of `Decode` over idle samples and over the ten bits of a frame,
then over a sequence of frames (R144 to R147, R151). -/

namespace Sys2Proof.Machine

/-! ### One pass of the loop -/

/-- From the variables `x` the loop gives `out`, whatever fuel is left, as long as it covers the samples ahead (R149). -/
def DecodesTo (os : Nat) (S : List Level) (n : Nat) (x : DecodeVars) (out : List Byte) : Prop :=
  ∀ fuel : Nat, S.length ≤ fuel + x.lastEdge → decodeLoop os S n fuel x = out

section
variable {os n : Nat} {S : List Level} {out : List Byte}

theorem decodeSamples_of_decodesTo
    (h : DecodesTo os S n { lastEdge := 0, lastBit := true, bitNo := 0, acc := 0, bytes := [] } out) :
    decodeSamples os S n = out :=
  h S.length (Nat.le_refl _)

/-- The bytes asked for have been emitted (R150). -/
theorem decodesTo_done {x : DecodeVars} (h : n ≤ x.bytes.length) : DecodesTo os S n x x.bytes :=
  fun fuel _ => decodeLoop_done os S n fuel x h

/-- A pass that goes on: the sample is there and `takeBit` takes it. -/
theorem decodesTo_of_pass {x y : DecodeVars} {v : Level} (hn : x.bytes.length < n)
    (hv : S[x.lastEdge + midpoint os]? = some v) (hy : takeBit v (resync os S (x.lastEdge + midpoint os) v x) = some y)
    (hadv : x.lastEdge < y.lastEdge + os) (h : DecodesTo os S n { y with lastEdge := y.lastEdge + os } out) :
    DecodesTo os S n x out := by
  intro fuel hfuel
  obtain ⟨hp, -⟩ := List.getElem?_eq_some_iff.mp hv
  obtain ⟨fuel, rfl⟩ : ∃ k, fuel = k + 1 := Nat.exists_eq_succ_of_ne_zero (by omega)
  rw [decodeLoop_step, if_neg (Nat.not_le.mpr hn)]
  simp only [hv, hy]
  exact h fuel (by dsimp only; omega)

/-- Resynchronisation finds the beginning `e` of the run of equal samples it stands in (R146). -/
theorem resync_eq {x : DecodeVars} {v : Level} {e p : Nat} (he : e ≤ p) (hback : p < e + os)
    (hrun : ∀ j, e ≤ j → j ≤ p → S[j]? = some v) (hprev : e = 0 ∨ S[e - 1]? = some x.lastBit)
    (hsame : v = x.lastBit → x.lastEdge = e) : resync os S p v x = { x with lastEdge := e, lastBit := v } := by
  unfold resync
  split
  · next hv =>
    rw [← hsame hv, hv]
  · next hv =>
    have hprev' : e = 0 ∨ S[e - 1]? ≠ some v := hprev.imp_right fun h h' => hv (Option.some.inj (h'.symm.trans h))
    rw [scanBack_eq S v _ e p he (by omega) (Nat.min_le_right _ _) hrun hprev']

/-! ### Idle samples -/

/-- Over idle samples the decoder waits: what it gives at a sampling point inside the first bit period after them, it gives
from every earlier edge (R147). -/
theorem decodesTo_idle (hos : 2 ≤ os) {e f : Nat} {acc : Byte} {bytes : List Byte} (hn : bytes.length < n)
    (he : e + midpoint os < f + os) (hidle : ∀ j, e ≤ j → j < f → S[j]? = some true)
    (h : ∀ e', f ≤ e' + midpoint os → e' + midpoint os < f + os → DecodesTo os S n ⟨e', true, 0, acc, bytes⟩ out) :
    DecodesTo os S n ⟨e, true, 0, acc, bytes⟩ out := by
  by_cases hp : f ≤ e + midpoint os
  · exact h e hp he
  · have hnext : DecodesTo os S n ⟨e + os, true, 0, acc, bytes⟩ out :=
      decodesTo_idle hos hn (by omega) (fun j hj hjf => hidle j (by omega) hjf) h
    exact decodesTo_of_pass hn (hidle _ (Nat.le_add_right _ _) (Nat.lt_of_not_le hp)) rfl
      (Nat.lt_add_of_pos_right (by omega)) hnext
termination_by f - e

end

/-! ### A frame -/

/-- The ten bits of `b`, expanded, stand in `S` from position `f` on (R100, R101). -/
def FrameAt (os : Nat) (S : List Level) (f : Nat) (b : Byte) : Prop :=
  ∀ t s : Nat, t < 10 → s < os → S[f + t * os + s]? = (frameLevels b)[t]?

theorem frameAt_append (os : Nat) (pre post : List Level) (b : Byte) :
    FrameAt os (pre ++ (encodeByte os b ++ post)) pre.length b := by
  intro t s ht hs
  have hin : t * os + s < (encodeByte os b).length := by
    have : (t + 1) * os ≤ 10 * os := Nat.mul_le_mul_right os ht
    rw [encodeByte_length]
    rw [Nat.add_mul] at this
    omega
  rw [Nat.add_assoc, List.getElem?_append_right (Nat.le_add_right _ _), Nat.add_sub_cancel_left,
    List.getElem?_append_left hin]
  exact expandBits_get os (frameLevels b) t s hs

/-- A frame ends at level 1 (R100). -/
theorem frameAt_lastSample {os : Nat} (hos : 2 ≤ os) {S : List Level} {f : Nat} {b : Byte} (hf : FrameAt os S f b) :
    S[f + 10 * os - 1]? = some true := by
  have hlast : f + 10 * os - 1 = f + 9 * os + (os - 1) := by omega
  rw [hlast]
  exact hf 9 (os - 1) (by decide) (by omega)

theorem frameLevels_data (b : Byte) {k : Nat} (hk : k < 8) : (frameLevels b)[k + 1]? = some (b.getLsbD k) := by
  interval_cases k <;> rfl

/-- The accumulator after the data bits 0 to `k - 1` (R144). -/
def lowBits (b : Byte) (k : Nat) : Byte := (b.setWidth k).setWidth 8

theorem lowBits_zero (b : Byte) : lowBits b 0 = 0 := by
  simp [lowBits, BitVec.of_length_zero]

theorem lowBits_all (b : Byte) : lowBits b 8 = b := by
  simp [lowBits]

/-- Taking data bit `k` (R144). -/
theorem lowBits_succ (b : Byte) {k : Nat} (hk : k < 8) :
    lowBits b k ||| ((if b.getLsbD k then 1#8 else 0#8) <<< k) = lowBits b (k + 1) := by
  apply BitVec.eq_of_getLsbD_eq
  intro i hi
  rcases Nat.lt_trichotomy i k with h | rfl | h
  · simp [lowBits, hi, h, Nat.lt_succ_of_lt h]
  · cases hb : b[i] <;> simp [lowBits, hi, hb]
  · have h1 : ¬ i < k := by omega
    have h2 : ¬ i < k + 1 := by omega
    have h3 : i - k ≠ 0 := by omega
    cases hb : b.getLsbD k <;> simp [lowBits, hi, h1, h2, h3]

section
variable {os n f : Nat} {S : List Level} {b : Byte} {bytes out : List Byte}

/-- In bit `t + 1` of a frame, resynchronisation leaves the edge at the beginning of the bit (R146). -/
theorem resync_in_frame (hos : 2 ≤ os) (hf : FrameAt os S f b) {t : Nat} (ht : t + 1 < 10) {u v : Level}
    (hu : (frameLevels b)[t]? = some u) (hv : (frameLevels b)[t + 1]? = some v) (bitNo : Nat) (acc : Byte) :
    resync os S (f + (t + 1) * os + midpoint os) v ⟨f + (t + 1) * os, u, bitNo, acc, bytes⟩ =
      ⟨f + (t + 1) * os, v, bitNo, acc, bytes⟩ := by
  obtain ⟨hm, -⟩ := midpoint_lt os hos
  refine resync_eq (Nat.le_add_right _ _) (by omega) (fun j hj hjp => ?run) (.inr ?prev) fun _ => rfl
  case run =>
    obtain ⟨s, rfl⟩ := Nat.exists_eq_add_of_le hj
    exact (hf (t + 1) s ht (by omega)).trans hv
  case prev =>
    have hlast : f + (t + 1) * os - 1 = f + t * os + (os - 1) := by
      rw [Nat.add_mul]
      omega
    rw [hlast]
    exact (hf t (os - 1) (by omega) (by omega)).trans hu

/-- A pass inside a frame takes the bit it stands in (R144, R145). -/
theorem decodesTo_bit (hos : 2 ≤ os) (hf : FrameAt os S f b) (hn : bytes.length < n) {t : Nat} (ht : t + 1 < 10) {u v : Level}
    (hu : (frameLevels b)[t]? = some u) (hv : (frameLevels b)[t + 1]? = some v) {acc acc' : Byte} {bitNo' : Nat}
    {bytes' : List Byte}
    (htake : takeBit v ⟨f + (t + 1) * os, v, t + 1, acc, bytes⟩ = some ⟨f + (t + 1) * os, v, bitNo', acc', bytes'⟩)
    (h : DecodesTo os S n ⟨f + (t + 2) * os, v, bitNo', acc', bytes'⟩ out) :
    DecodesTo os S n ⟨f + (t + 1) * os, u, t + 1, acc, bytes⟩ out := by
  obtain ⟨hm, -⟩ := midpoint_lt os hos
  have hedge : f + (t + 1) * os + os = f + (t + 2) * os := by ring
  rw [← hedge] at h
  rw [← resync_in_frame hos hf ht hu hv] at htake
  exact decodesTo_of_pass hn ((hf (t + 1) _ ht hm).trans hv) htake (Nat.lt_add_of_pos_right (by omega)) h

/-- The stop bit emits the byte (R144). -/
theorem decodesTo_stop (hos : 2 ≤ os) (hf : FrameAt os S f b) (hn : bytes.length < n) {u : Level}
    (hu : (frameLevels b)[8]? = some u) (h : DecodesTo os S n ⟨f + 10 * os, true, 0, b, bytes ++ [b]⟩ out) :
    DecodesTo os S n ⟨f + 9 * os, u, 9, b, bytes⟩ out :=
  decodesTo_bit hos hf hn (t := 8) (by decide) hu rfl rfl h

/-- The data bits still to come are taken one by one, least significant first (R144). -/
theorem decodesTo_data (hos : 2 ≤ os) (hf : FrameAt os S f b) (hn : bytes.length < n)
    (h : DecodesTo os S n ⟨f + 10 * os, true, 0, b, bytes ++ [b]⟩ out) {k : Nat} (hk : k ≤ 8) :
    ∀ u, (frameLevels b)[k]? = some u → DecodesTo os S n ⟨f + (k + 1) * os, u, k + 1, lowBits b k, bytes⟩ out := by
  induction hk using Nat.decreasingInduction with
  | self =>
    rw [lowBits_all]
    exact fun u hu => decodesTo_stop hos hf hn hu h
  | of_succ k hk ih =>
    intro u hu
    have hv := frameLevels_data b hk
    refine decodesTo_bit hos hf hn (by omega) hu hv ?_ (ih _ hv)
    simp only [takeBit, ← lowBits_succ b hk, Nat.add_one_ne_zero, if_false, Nat.add_sub_cancel, Nat.succ_le_of_lt hk,
      if_true]

/-- A frame with idle samples before it gives its byte; the decoder then stands at the end of the stop bit. -/
theorem decodesTo_frame (hos : 2 ≤ os) (hf : FrameAt os S f b) (hn : bytes.length < n) {e : Nat} (hef : e ≤ f)
    (hprev : f = 0 ∨ S[f - 1]? = some true) (hidle : ∀ j, e ≤ j → j < f → S[j]? = some true) {acc : Byte}
    (h : DecodesTo os S n ⟨f + 10 * os, true, 0, b, bytes ++ [b]⟩ out) : DecodesTo os S n ⟨e, true, 0, acc, bytes⟩ out := by
  obtain ⟨hm, -⟩ := midpoint_lt os hos
  have hstart : ∀ s, s < os → S[f + s]? = some false := fun s hs => by simpa [frameLevels] using hf 0 s (by decide) hs
  refine decodesTo_idle hos hn (by omega) hidle fun e' hlo hhi => ?_
  have hv : S[e' + midpoint os]? = some false := by
    obtain ⟨s, hs⟩ := Nat.exists_eq_add_of_le hlo
    rw [hs]
    exact hstart s (by omega)
  have hsync : resync os S (e' + midpoint os) false ⟨e', true, 0, acc, bytes⟩ = ⟨f, false, 0, acc, bytes⟩ := by
    refine resync_eq hlo hhi (fun j hj hjp => ?_) hprev fun h => nomatch h
    obtain ⟨s, rfl⟩ := Nat.exists_eq_add_of_le hj
    exact hstart s (by omega)
  refine decodesTo_of_pass (y := ⟨f, false, 1, 0, bytes⟩) hn hv (by rw [hsync]; rfl) (by dsimp only; omega) ?_
  simpa [lowBits_zero] using decodesTo_data hos hf hn h (Nat.zero_le 8) false rfl

end

/-! ### A sequence of frames -/

/-- Frames, each with its number of idle samples before it. -/
def idleFrames (os : Nat) (frames : List (Nat × Byte)) : List Level :=
  frames.flatMap fun p => List.replicate p.1 true ++ encodeByte os p.2

/-- Samples of a run of idle samples. -/
theorem getElem?_idle {pre post : List Level} {k j : Nat} (hj : pre.length ≤ j) (hjk : j < pre.length + k) :
    (pre ++ (List.replicate k true ++ post))[j]? = some true := by
  rw [List.getElem?_append_right hj, List.getElem?_append_left (by simp; omega)]
  exact List.getElem?_replicate_of_lt (by omega)

/-- Decoding from a position where a sequence of frames begins gives their bytes. -/
theorem decodesTo_frames {os n : Nat} (hos : 2 ≤ os) {S rest : List Level} (frames : List (Nat × Byte)) :
    ∀ (pre : List Level) (bytes : List Byte) (acc : Byte), S = pre ++ (idleFrames os frames ++ rest) →
      (pre.length = 0 ∨ S[pre.length - 1]? = some true) → n = bytes.length + frames.length →
      DecodesTo os S n ⟨pre.length, true, 0, acc, bytes⟩ (bytes ++ frames.map Prod.snd) := by
  induction frames with
  | nil =>
    intro pre bytes acc _ _ hn
    simpa using decodesTo_done (x := ⟨pre.length, true, 0, acc, bytes⟩) (Nat.le_of_eq hn)
  | cons p frames ih =>
    obtain ⟨k, b⟩ := p
    intro pre bytes acc hS hpre hn
    have hS' : S = pre ++ (List.replicate k true ++ (encodeByte os b ++ (idleFrames os frames ++ rest))) := by
      simp [hS, idleFrames]
    have hframe : FrameAt os S (pre.length + k) b := by
      simpa [hS'] using frameAt_append os (pre ++ List.replicate k true) (idleFrames os frames ++ rest) b
    have hidle : ∀ j, pre.length ≤ j → j < pre.length + k → S[j]? = some true := fun j hj hjk => by
      rw [hS']
      exact getElem?_idle hj hjk
    have hprev : pre.length + k = 0 ∨ S[pre.length + k - 1]? = some true := by
      rcases Nat.eq_zero_or_pos k with rfl | hk
      · exact hpre
      · exact .inr (hidle _ (by omega) (by omega))
    rw [List.length_cons] at hn
    refine decodesTo_frame hos hframe (by omega) (Nat.le_add_right _ _) hprev hidle ?_
    have hend : (pre ++ List.replicate k true ++ encodeByte os b).length = pre.length + k + 10 * os := by
      simp [encodeByte_length, Nat.add_assoc]
    have hnext := ih (pre ++ List.replicate k true ++ encodeByte os b) (bytes ++ [b]) b (by simpa using hS')
      (.inr (hend ▸ frameAt_lastSample hos hframe)) (by rw [List.length_append, List.length_singleton]; omega)
    rw [hend] at hnext
    simpa using hnext

/-- The round trip of R151, whatever follows the last frame. -/
theorem decodeSamples_idleFrames {os : Nat} (hos : 2 ≤ os) (frames : List (Nat × Byte)) (rest : List Level) :
    decodeSamples os (idleFrames os frames ++ rest) frames.length = frames.map Prod.snd :=
  decodeSamples_of_decodesTo (decodesTo_frames hos frames [] [] 0 rfl (.inl rfl) (Nat.zero_add _).symm)

/-- Frames without a gap, after idle samples (R142). -/
theorem idleFrames_of_encodeBytes (os lead : Nat) (b : Byte) (bytes : List Byte) :
    List.replicate lead true ++ encodeBytes os (b :: bytes) = idleFrames os ((lead, b) :: bytes.map (Prod.mk 0)) := by
  simp [idleFrames, encodeBytes, List.flatMap_map]

/-- A buffer after idle samples is decoded to its bytes (R151). -/
theorem decodeSamples_encodeBytes {os : Nat} (hos : 2 ≤ os) (lead : Nat) (bytes : List Byte) (rest : List Level) :
    decodeSamples os (List.replicate lead true ++ encodeBytes os bytes ++ rest) bytes.length = bytes := by
  cases bytes with
  | nil => exact List.eq_nil_of_length_eq_zero (Nat.le_zero.mp (decodeSamples_length_le _ _ _))
  | cons b bytes =>
    rw [idleFrames_of_encodeBytes]
    simpa using decodeSamples_idleFrames hos ((lead, b) :: bytes.map (Prod.mk 0)) rest

end Sys2Proof.Machine
end

section
/-! A clean reply: captured in `reading`, lost in every other state (R169, R176, R181). -/

namespace Sys2Proof.Machine

/-- A clean reply lies wholly within the capture: what is cut off are idle samples (R176). -/
theorem take_replyCapture (c : Config) (draw : Nat) {bytes : List Byte} (h8 : bytes.length = 8) :
    ∃ (lead : Nat) (rest : List Level), (replyCapture c draw bytes).take (captureLen c) =
      List.replicate lead true ++ encodeBytes c.oversample bytes ++ rest := by
  have hfits : (List.replicate (min (Config.freeReplyLead draw) (c.captureSlackBits * c.oversample)) true ++
      encodeBytes c.oversample bytes).length ≤ captureLen c := by
    simp only [List.length_append, List.length_replicate, encodeBytes_length, h8, captureLen, maxReadBytes, Nat.add_mul]
    omega
  exact ⟨_, _, by rw [replyCapture, List.take_append, List.take_of_length_le hfits]⟩

section
variable {c : Config} {s : State} {bytes : List Byte}

theorem receiveReply_lost (h : s.tr.tstate ≠ .reading) : s.receiveReply c bytes = s := if_neg h

/-- What is left when a reply has been captured from `s`: the Transport complete, the line restored, and samples that decode
to the bytes of the reply (R169). -/
def Captured (c : Config) (s : State) (bytes : List Byte) (o : Host.Outcome State Fault Refusal) : Prop :=
  ∃ t : Transport, o = .next { s with tr := t } ∧ t.tstate = .complete ∧ t.rxCount = s.tr.rxCount ∧
    t.lineDir = .output ∧ t.lineLevel = true ∧ decodeSamples c.oversample t.samples 8 = bytes

theorem receiveReply_captured (hs : s.tr.tstate = .reading) (h0 : s.tr.samples = []) (h8 : bytes.length = 8) :
    Captured c s bytes (.next (s.receiveReply c bytes)) := by
  have hreply : s.receiveReply c bytes = s.withTr (s.tr.unitDone c (replyCapture c s.tr.draws bytes)) := if_pos hs
  have hlong : captureLen c ≤ (replyCapture c s.tr.draws bytes).length := by simp [replyCapture]; omega
  obtain ⟨lead, rest, htake⟩ := take_replyCapture c s.tr.draws h8
  rw [hreply, unitDone_reading c _ _ hs, h0, List.nil_append, fillTo_of_le _ _ _ hlong, htake]
  refine ⟨_, rfl, rfl, rfl, rfl, rfl, ?_⟩
  rw [← h8]
  exact decodeSamples_encodeBytes c.oversample_ge lead bytes rest

end

/-- Settles O56. -/
theorem repliesAreCaptured : Obligations.RepliesAreCaptured := by
  unfold Obligations.RepliesAreCaptured
  intro s sync addr ifcnt crc reg hi v
  refine ⟨fun h => ⟨?_, ?_⟩, fun hs h0 => ⟨?_, ?_⟩⟩
  · exact congrArg _ (receiveReply_lost h)
  · exact congrArg _ (receiveReply_lost h)
  · exact receiveReply_captured (bytes := ifcntRespBytes sync addr hi ifcnt crc) hs h0 rfl
  · exact receiveReply_captured (bytes := readRespBytes reg v crc) hs h0 rfl

end Sys2Proof.Machine
end

section
/-! What `Encode` gives, run by run and sample by sample, and what the codec operations answer (R100, R101, R140 to R143,
R153). -/

namespace Sys2Proof.Machine

/-- Level `t` of a frame is bit `t` of the integer `F(b)` (R100). -/
theorem frameLevels_eq_bits (b : Byte) {t : Nat} (ht : t < 10) :
    (frameLevels b)[t]? = some ((0x200#10 ||| (b.setWidth 10 <<< 1)).getLsbD t) := by
  have hstop : 0x200#10 = BitVec.twoPow 10 9 := rfl
  cases t with
  | zero => simp [frameLevels]
  | succ k =>
    rcases Nat.lt_or_ge k 8 with hk | hk
    · rw [frameLevels_data b hk, hstop]
      simp [ht, hk.ne]
    · obtain rfl : k = 8 := by omega
      simp [frameLevels]

/-- Settles O1. -/
theorem encodeIsTheExpandedFrame : Obligations.EncodeIsTheExpandedFrame := by
  unfold Obligations.EncodeIsTheExpandedFrame
  intro os b
  refine ⟨?runs, encodeByte_length os b, fun t s ht hs => ?sample⟩
  case runs => simp [encodeByte, expandBits, frameLevels, List.range_succ]
  case sample => exact (expandBits_get os (frameLevels b) t s hs).trans (frameLevels_eq_bits b ht)

/-- Settles O4: the answers are those of `State.deliver` and `State.decodeCmd`, and the engine stopped lets the direct
commands through. -/
theorem codecOperationsAnswer : Obligations.CodecOperationsAnswer := by
  unfold Obligations.CodecOperationsAnswer
  intro s b n buf
  have hframe : execFrame b s = .next (s.deliver (encodeByte cfg.oversample b)) := rfl
  refine ⟨fun hr => ?encode, ?frame, ?encodeBuf, _, rfl, ?atMost, fun hr => ?decode⟩
  case encode => rw [exec, execEncode, onIdleEngine_stopped hr, State.deliver, encodeByte_length]; rfl
  case frame => rw [exec, hframe, State.deliver, encodeByte_length]; rfl
  case encodeBuf => rw [exec, execEncodeBuf, State.deliver, encodeBytes_length]; rfl
  case atMost => exact (decodeSamples_length_le _ _ _).trans (Nat.min_le_right _ _)
  case decode => rw [exec, execDecode, onIdleEngine_stopped hr]; rfl

end Sys2Proof.Machine
end

section
/-! The round trip of the codec, and the decoding that a low stop position ends (R148 to R151). -/

namespace Sys2Proof.Machine

/-- Settles O2. For `os = 1` the sampling point lies in the following bit, and the byte 0 is lost. -/
theorem codecRoundTrip : Obligations.CodecRoundTrip := by
  unfold Obligations.CodecRoundTrip
  exact ⟨fun os frames tail hos => decodeSamples_idleFrames hos frames (List.replicate tail true), 0, by decide⟩

/-! ### One bit period of equal samples -/

section
variable {os n : Nat} {S pre post : List Level} {u v : Level}

theorem getElem?_bitPeriod (hS : S = pre ++ (List.replicate os v ++ post)) {j : Nat} (hj : pre.length ≤ j)
    (hjos : j < pre.length + os) : S[j]? = some v := by
  rw [hS, List.getElem?_append_right hj, List.getElem?_append_left (by simp; omega)]
  exact List.getElem?_replicate_of_lt (by omega)

/-- The sampling point shows the level of the bit, and resynchronisation leaves the edge at its beginning (R145, R146). -/
theorem sample_bitPeriod (hos : 2 ≤ os) (hS : S = pre ++ (List.replicate os v ++ post))
    (hprev : pre.length = 0 ∨ S[pre.length - 1]? = some u) (bitNo : Nat) (acc : Byte) (bytes : List Byte) :
    S[pre.length + midpoint os]? = some v ∧
      resync os S (pre.length + midpoint os) v ⟨pre.length, u, bitNo, acc, bytes⟩ = ⟨pre.length, v, bitNo, acc, bytes⟩ := by
  obtain ⟨hm, -⟩ := midpoint_lt os hos
  have hrun : ∀ j, pre.length ≤ j → j ≤ pre.length + midpoint os → S[j]? = some v :=
    fun j hj hjp => getElem?_bitPeriod hS hj (by omega)
  exact ⟨hrun _ (Nat.le_add_right _ _) (Nat.le_refl _),
    resync_eq (Nat.le_add_right _ _) (by omega) hrun hprev fun _ => rfl⟩

/-! ### A frame with a low stop position -/

/-- The last bit period of a frame is low: the decoder gives what it has emitted before (R148). -/
theorem decodesTo_lowStop (hos : 2 ≤ os) (hS : S = pre ++ (List.replicate os false ++ post))
    (hprev : pre.length = 0 ∨ S[pre.length - 1]? = some u) (acc : Byte) (bytes : List Byte) :
    DecodesTo os S n ⟨pre.length, u, 9, acc, bytes⟩ bytes := by
  obtain ⟨hv, hsync⟩ := sample_bitPeriod hos hS hprev 9 acc bytes
  intro fuel _
  cases fuel with
  | zero => rfl
  | succ fuel =>
    rw [decodeLoop_step]
    simp [hv, hsync, takeBit]

/-- A bit period that the decoder takes without emitting a byte brings it to the next one. -/
theorem decodesTo_bitPeriod (hos : 2 ≤ os) (hS : S = pre ++ (List.replicate os v ++ post))
    (hprev : pre.length = 0 ∨ S[pre.length - 1]? = some u) {acc acc' : Byte} {bytes out : List Byte} {k k' : Nat}
    (hn : bytes.length < n) (htake : takeBit v ⟨pre.length, v, k, acc, bytes⟩ = some ⟨pre.length, v, k', acc', bytes⟩)
    (h : S[(pre ++ List.replicate os v).length - 1]? = some v →
      DecodesTo os S n ⟨(pre ++ List.replicate os v).length, v, k', acc', bytes⟩ out) :
    DecodesTo os S n ⟨pre.length, u, k, acc, bytes⟩ out := by
  obtain ⟨hv, hsync⟩ := sample_bitPeriod hos hS hprev k acc bytes
  rw [List.length_append, List.length_replicate] at h
  rw [← hsync] at htake
  exact decodesTo_of_pass hn hv htake (Nat.lt_add_of_pos_right (by omega))
    (h (getElem?_bitPeriod hS (by omega) (by omega)))

/-- Inside a frame whose stop position is low: whatever its data bits, nothing more is emitted (R148). -/
theorem decodesTo_dataThenLow (hos : 2 ≤ os) {bytes : List Byte} (hn : bytes.length < n) (data : List Level) :
    ∀ (pre : List Level) (u : Level) (k : Nat) (acc : Byte),
      S = pre ++ (expandBits os data ++ (List.replicate os false ++ post)) →
      (pre.length = 0 ∨ S[pre.length - 1]? = some u) → k + 1 + data.length = 9 →
      DecodesTo os S n ⟨pre.length, u, k + 1, acc, bytes⟩ bytes := by
  induction data with
  | nil =>
    rintro pre u k acc hS hprev ⟨⟩
    exact decodesTo_lowStop hos hS hprev acc bytes
  | cons v data ih =>
    intro pre u k acc hS hprev hk
    rw [List.length_cons] at hk
    have hS' : S = pre ++ (List.replicate os v ++ (expandBits os data ++ (List.replicate os false ++ post))) := by
      simpa [expandBits] using hS
    have htake : takeBit v ⟨pre.length, v, k + 1, acc, bytes⟩ =
        some ⟨pre.length, v, k + 2, acc ||| ((if v then 1#8 else 0#8) <<< k), bytes⟩ := by
      simp [takeBit, show k + 1 ≤ 8 by omega]
    exact decodesTo_bitPeriod hos hS' hprev hn htake fun hlast =>
      ih (pre ++ List.replicate os v) v (k + 1) _ (by simpa using hS') (.inr hlast) (by omega)

/-- A frame with a low stop position is dropped, and what follows it is not looked at (R148). -/
theorem decodesTo_badFrame (hos : 2 ≤ os) {bytes : List Byte} (hn : bytes.length < n) (bad acc : Byte)
    (hS : S = pre ++ (expandBits os ((frameLevels bad).take 9) ++ (List.replicate os false ++ post)))
    (hprev : pre.length = 0 ∨ S[pre.length - 1]? = some true) :
    DecodesTo os S n ⟨pre.length, true, 0, acc, bytes⟩ bytes := by
  have hS' : S = pre ++ (List.replicate os false ++
      (expandBits os (((frameLevels bad).take 9).tail) ++ (List.replicate os false ++ post))) := by
    simpa [expandBits, frameLevels] using hS
  exact decodesTo_bitPeriod hos hS' hprev hn rfl fun hlast =>
    decodesTo_dataThenLow hos hn _ _ _ 0 _ (by simpa using hS') (.inr hlast) rfl

/-! ### Good bytes before it -/

/-- From the beginning of good frames that a frame with a low stop position follows, the decoder emits the good bytes as
far as they are asked for. -/
theorem decodesTo_goodThenBad (hos : 2 ≤ os) (bad : Byte) (good : List Byte) :
    ∀ (pre : List Level) (bytes : List Byte) (acc : Byte),
      S = pre ++ (encodeBytes os good ++ (expandBits os ((frameLevels bad).take 9) ++ (List.replicate os false ++ post))) →
      (pre.length = 0 ∨ S[pre.length - 1]? = some true) →
      DecodesTo os S n ⟨pre.length, true, 0, acc, bytes⟩ (bytes ++ good.take (n - bytes.length)) := by
  induction good with
  | nil =>
    intro pre bytes acc hS hprev
    rw [List.take_nil, List.append_nil]
    by_cases hn : bytes.length < n
    · exact decodesTo_badFrame hos hn bad acc hS hprev
    · exact decodesTo_done (Nat.le_of_not_lt hn)
  | cons b good ih =>
    intro pre bytes acc hS hprev
    by_cases hn : bytes.length < n
    · have hframe : FrameAt os S pre.length b := by
        rw [hS, encodeBytes, List.flatMap_cons, List.append_assoc]
        exact frameAt_append os pre _ b
      have hend : (pre ++ encodeByte os b).length = pre.length + 10 * os := by
        rw [List.length_append, encodeByte_length]
      have hnext := ih (pre ++ encodeByte os b) (bytes ++ [b]) b (by simpa [encodeBytes] using hS)
        (.inr (hend ▸ frameAt_lastSample hos hframe))
      have hout : bytes ++ (b :: good).take (n - bytes.length) = bytes ++ [b] ++ good.take (n - (bytes ++ [b]).length) := by
        rw [List.take_cons (by omega), List.length_append, List.length_singleton, Nat.sub_sub, List.append_assoc,
          List.singleton_append]
      rw [hout]
      exact decodesTo_frame hos hframe hn (Nat.le_refl _) hprev (fun j hj hjf => absurd hj (Nat.not_le.mpr hjf)) (hend ▸ hnext)
    · rw [Nat.sub_eq_zero_of_le (Nat.le_of_not_lt hn), List.take_zero, List.append_nil]
      exact decodesTo_done (Nat.le_of_not_lt hn)

end

/-- Settles O3. -/
theorem lowStopBitEndsDecoding : Obligations.LowStopBitEndsDecoding := by
  unfold Obligations.LowStopBitEndsDecoding
  refine ⟨fun os good bad rest n hos => decodeSamples_of_decodesTo ?_, decodeSamples_length_le⟩
  have hdecode := decodesTo_goodThenBad (n := n) (post := rest) hos bad good [] [] 0 rfl (.inl rfl)
  simpa using hdecode

end Sys2Proof.Machine
end

section
/-! The direct commands of the Transport and the events of the hardware engine (R163 to R173). -/

namespace Sys2Proof.Machine

/-! ### What each of them runs -/

section
variable {s : State}

theorem exec_evUnit_of_unitDone {capture : List Level} {t : Transport} (h : s.tr.unitDone cfg capture = t) :
    exec (.evUnit capture) s = .next { s with tr := t } := h ▸ rfl

theorem exec_evHwErr_of_hwError {t : Transport} (h : s.tr.hwError = t) : exec .evHwErr s = .next { s with tr := t } :=
  h ▸ rfl

theorem exec_tStart_stopped (hr : s.running = false) (line : Byte) (wc rc : Word) :
    exec (.tStart line wc rc) s = .next (s.startCmd cfg line.toNat wc.toNat rc.toNat) := by
  rw [exec, execTStart, onIdleEngine_stopped hr]

theorem exec_tCheck_stopped (hr : s.running = false) : exec .tCheck s = .next (s.checkCmd cfg) := by
  rw [exec, execTCheck, onIdleEngine_stopped hr]

theorem exec_tAbort_stopped (hr : s.running = false) : exec .tAbort s = .next ((s.withTr s.tr.abort).answer true 0) := by
  rw [exec, execTAbort, onIdleEngine_stopped hr]

/-! ### `T_START` (R163) -/

/-- With all its bytes driven, the write port gives what drives it (R125). -/
theorem take_writePort {n : Nat} (hw : s.ports.wdata.length = 12) : s.writePort.take n = s.ports.wdata.take n := by
  have hport : s.writePort = s.ports.wdata := by
    rw [State.writePort, maxWriteBytes, fillTo_of_le _ _ _ hw.ge, List.take_of_length_le hw.le]
  rw [hport]

theorem length_take_writePort {n : Nat} (hn : n ≤ 12) : (s.writePort.take n).length = n := by
  rw [List.length_take, State.writePort, fillTo_length]
  exact Nat.min_eq_left hn

theorem startCmd_of_start {c : Config} {line wc rc : Nat} {t : Transport} (hline : line < c.platformLines) (h1 : 1 ≤ wc)
    (h12 : wc ≤ 12) (h : s.tr.start c line (s.writePort.take wc) rc = some t) :
    s.startCmd c line wc rc = (s.withTr { t with draws := t.draws + 1 }).answer true 0 := by
  rw [State.startCmd, if_pos ⟨hline, h1, h12⟩, h]

theorem startCmd_refused {c : Config} {line wc rc : Nat}
    (h : ¬(s.tr.tstate = .idle ∨ s.tr.tstate = .complete ∨ s.tr.tstate = .error) ∨ wc = 0 ∨ 12 < wc ∨ rc = 0 ∨ 8 < rc ∨
      c.platformLines ≤ line) : s.startCmd c line wc rc = s.refuse := by
  unfold State.startCmd
  split
  · rename_i hok
    obtain ⟨hline, h1, (h12 : wc ≤ 12)⟩ := hok
    have hlen := length_take_writePort (s := s) h12
    rw [start_eq_none c line _ rc s.tr (h.imp_right fun h => by rw [hlen]; omega)]
  · rfl

end

/-- Settles O15: the port gives exactly the bytes asked for, so that their count is `txCount`. -/
theorem tStartStartsATransfer : Obligations.TStartStartsATransfer := by
  unfold Obligations.TStartStartsATransfer
  intro s line wc rc hr hline hs h1 h12 hrc hrc' hw
  have hlen := length_take_writePort (s := s) h12
  have hstart := start_eq_some cfg line.toNat (s.writePort.take wc.toNat) rc.toNat s.tr hs (hlen.symm ▸ h1) (hlen.symm ▸ h12)
    hrc hrc'
  rw [exec_tStart_stopped hr, startCmd_of_start hline h1 h12 hstart, hlen, take_writePort hw]
  exact ⟨_, rfl, rfl, rfl, rfl, rfl, rfl, rfl, rfl, rfl, rfl, rfl, rfl, rfl⟩

/-- Settles O16: each ground is one of `startCmd_refused`. -/
theorem tStartRefused : Obligations.TStartRefused := by
  unfold Obligations.TStartRefused
  intro s line wc rc hr h
  rw [exec_tStart_stopped hr, startCmd_refused h]
  rfl

/-! ### `EV_UNIT` (R164 to R169, R173) -/

/-- Settles O17. -/
theorem evUnitWhileWriting : Obligations.EvUnitWhileWriting := by
  unfold Obligations.EvUnitWhileWriting
  intro s capture hs
  exact ⟨fun hq => ⟨_, exec_evUnit_of_unitDone (unitDone_queue cfg capture s.tr hs hq)⟩,
    fun hq => exec_evUnit_of_unitDone (unitDone_written cfg capture s.tr hs hq)⟩

/-- Settles O18. -/
theorem evUnitInTheGuards : Obligations.EvUnitInTheGuards := by
  unfold Obligations.EvUnitInTheGuards
  intro s capture
  exact ⟨fun hs => exec_evUnit_of_unitDone (unitDone_delay cfg capture s.tr hs),
    fun hs => exec_evUnit_of_unitDone (unitDone_readSync1 cfg capture s.tr hs),
    fun hs => ⟨_, exec_evUnit_of_unitDone (unitDone_readSync2 cfg capture s.tr hs)⟩⟩

/-- Settles O19: with nothing stored before, a capture of the full length is the whole of the samples. -/
theorem evUnitCompletesTheCapture : Obligations.EvUnitCompletesTheCapture := by
  unfold Obligations.EvUnitCompletesTheCapture
  intro s capture hs h0 hlen
  have hsamples : fillTo (captureLen cfg) (s.tr.samples ++ capture) (Config.freeSample s.tr.draws) = capture := by
    rw [h0, List.nil_append, fillTo_of_le _ _ _ hlen.ge, List.take_of_length_le hlen.le]
  have hdone := unitDone_reading cfg capture s.tr hs
  rw [hsamples] at hdone
  exact ⟨_, _, exec_evUnit_of_unitDone hdone⟩

theorem inTransfer_eq_false {x : TState} (h : x = .idle ∨ x = .complete ∨ x = .error) : x.inTransfer = false := by
  rcases h with h | h | h <;> rw [h] <;> rfl

section
variable {s : State} (h : s.tr.tstate.inTransfer = false)
include h

theorem exec_evUnit_ignored (capture : List Level) : exec (.evUnit capture) s = .next s :=
  exec_evUnit_of_unitDone (unitDone_ignored cfg capture s.tr h)

theorem exec_evHwErr_ignored : exec .evHwErr s = .next s := exec_evHwErr_of_hwError (hwError_ignored s.tr h)

end

/-- Settles O21. -/
theorem eventsOutsideATransferIgnored : Obligations.EventsOutsideATransferIgnored := by
  unfold Obligations.EventsOutsideATransferIgnored
  intro s capture hs
  have hquiet := inTransfer_eq_false hs
  exact ⟨exec_evUnit_ignored hquiet capture, exec_evHwErr_ignored hquiet⟩

/-! ### `EV_HWERR`, `T_ABORT` and `T_CHECK` (R170 to R172) -/

/-- Settles O20: the event, and a tick that reports the error, halt the Transport in `error`. -/
theorem hardwareErrorEndsTheTransfer : Obligations.HardwareErrorEndsTheTransfer := by
  unfold Obligations.HardwareErrorEndsTheTransfer
  intro s hs
  have hin := (inTransfer_iff _).mpr hs
  refine ⟨[], 0, s.tr.halt .error, rfl, ?event, fun lineIn hwErr => tick_quiet cfg _ lineIn hwErr rfl, fun lineIn rest => ?tick⟩
  case event => exact exec_evHwErr_of_hwError (hwError_stops s.tr hin)
  case tick =>
    rw [step_of_fetch_settled (fetch_of_tick rfl)]
    simp only [tick_fault cfg s.tr lineIn hin]

/-- Settles O23: the state left is `idle`, in which events and ticks find no transfer. -/
theorem tAbortStopsTheTransfer : Obligations.TAbortStopsTheTransfer := by
  unfold Obligations.TAbortStopsTheTransfer
  intro s capture hr
  exact ⟨[], [], 0, [], (s.withTr s.tr.abort).answer true 0, rfl, exec_tAbort_stopped hr, exec_evUnit_ignored rfl capture,
    exec_evHwErr_ignored rfl, fun lineIn hwErr => tick_quiet cfg _ lineIn hwErr rfl⟩

theorem exec_tCheck_false {s : State} (hr : s.running = false) (h : s.tr.tstate ≠ .complete) :
    exec .tCheck s = .next (s.answer false 0) := by
  rw [exec_tCheck_stopped hr, State.checkCmd, check_not_complete cfg s.tr h]

/-- Settles O22: after the first `T_CHECK` the state is `idle`, so the second answers false. -/
theorem tCheckDeliversOnce : Obligations.TCheckDeliversOnce := by
  unfold Obligations.TCheckDeliversOnce
  intro s hr
  refine ⟨fun hs => ⟨[], [], exec_tCheck_false hr hs⟩, fun hs => ⟨_, [], [], [], [], true, _, rfl, rfl, ?first, ?second⟩⟩
  case first => rw [exec_tCheck_stopped hr, State.checkCmd, check_complete cfg s.tr hs]; rfl
  case second => exact exec_tCheck_false hr TState.noConfusion

end Sys2Proof.Machine
end

section
/-! How many `EV_UNIT` are left in a transfer (R164 to R169, R179). -/

namespace Sys2Proof.Machine

/-- `EV_UNIT` events left until `complete`, for a transfer in progress (R179). -/
def Transport.eventsLeft (t : Transport) : Nat :=
  match t.tstate with
  | .writing => t.txCount - t.txQueued + 5
  | .delay => 4
  | .readSync1 => 3
  | .readSync2 => 2
  | .reading => 1
  | .idle | .writeSync | .complete | .error => 0

section
variable {c : Config} {capture : List Level} {t : Transport}

/-- The last event of a transfer is the one that ends the capture (R169). -/
theorem unitDone_completes (hin : t.tstate.inTransfer = true) (hleft : t.eventsLeft = 1) :
    (t.unitDone c capture).tstate = .complete := by
  have hs : t.tstate = .reading := by
    rcases (inTransfer_iff _).mp hin with hs | hs | hs | hs | hs <;> simp [Transport.eventsLeft, hs] at hleft ⊢
  rw [unitDone_reading c capture t hs]

/-- Every event before the last leaves the transfer in progress with one event less to come. -/
theorem unitDone_eventsLeft (hin : t.tstate.inTransfer = true) (hleft : 1 < t.eventsLeft) :
    (t.unitDone c capture).tstate.inTransfer = true ∧ (t.unitDone c capture).eventsLeft + 1 = t.eventsLeft := by
  rcases (inTransfer_iff _).mp hin with hs | hs | hs | hs | hs
  · by_cases hq : t.txQueued < t.txCount
    · rw [unitDone_queue c capture t hs hq]
      simp only [Transport.eventsLeft, hs]
      exact ⟨rfl, by omega⟩
    · rw [unitDone_written c capture t hs (Nat.le_of_not_lt hq)]
      simp only [Transport.eventsLeft, hs]
      exact ⟨rfl, by omega⟩
  · rw [unitDone_delay c capture t hs]
    simp [Transport.eventsLeft, hs, TState.inTransfer]
  · rw [unitDone_readSync1 c capture t hs]
    simp [Transport.eventsLeft, hs, TState.inTransfer]
  · rw [unitDone_readSync2 c capture t hs]
    simp [Transport.eventsLeft, hs, TState.inTransfer]
  · simp [Transport.eventsLeft, hs] at hleft

theorem afterUnits_eventsLeft (hin : t.tstate.inTransfer = true) (k : Nat) (hk : k < t.eventsLeft) :
    (t.afterUnits c capture k).tstate.inTransfer = true ∧ (t.afterUnits c capture k).eventsLeft + k = t.eventsLeft := by
  induction k with
  | zero => exact ⟨hin, rfl⟩
  | succ k ih =>
    obtain ⟨hin', hleft⟩ := ih (by omega)
    obtain ⟨hnext, hcount⟩ := unitDone_eventsLeft (c := c) (capture := capture) hin' (by omega)
    exact ⟨hnext, by rw [Transport.afterUnits]; omega⟩

theorem afterUnits_completes (hin : t.tstate.inTransfer = true) (hpos : 0 < t.eventsLeft) :
    (t.afterUnits c capture t.eventsLeft).tstate = .complete := by
  obtain ⟨k, hk⟩ := Nat.exists_eq_add_one.mpr hpos
  obtain ⟨hin', hleft⟩ := afterUnits_eventsLeft (c := c) (capture := capture) hin k (by omega)
  rw [hk]
  exact unitDone_completes hin' (by omega)

end

/-- Settles O24: a started transfer has exactly that many events left, and is in progress until the last of them. -/
theorem eventsPerTransfer : Obligations.EventsPerTransfer := by
  unfold Obligations.EventsPerTransfer
  refine ⟨fun c line buf rc t0 t capture hstart => ?transfer, fun c hpre => ?counts⟩
  case transfer =>
    obtain ⟨-, -, -, -, -, ht⟩ := start_cases c line buf rc t0 t hstart
    have hin : t.tstate.inTransfer = true := by rw [ht]; rfl
    have hleft : t.eventsLeft = buf.length - min c.preloadBytes buf.length + 5 := by rw [ht]; rfl
    rw [← hleft]
    refine ⟨afterUnits_completes hin (by omega), fun k hk hcomplete => ?_⟩
    obtain ⟨hin', -⟩ := afterUnits_eventsLeft (c := c) (capture := capture) hin k hk
    rw [hcomplete] at hin'
    cases hin'
  case counts => simp [transferEvents, hpre]

end Sys2Proof.Machine
end

section
/-! Tick by tick through a transfer: the line carries the write waveform up to the switch to input, and the capture stores the
line levels (R174 to R176, R180). -/

namespace Sys2Proof.Machine

/-! ### Up to the switch to input -/

/-- The states in which the block drives the line of a transfer (R174, R175). -/
def TState.drives (x : TState) : Prop := x = .writing ∨ x = .delay ∨ x = .readSync1 ∨ x = .readSync2

theorem TState.drives.inTransfer {x : TState} (h : x.drives) : x.inTransfer = true := by
  rcases h with h | h | h | h <;> rw [h] <;> rfl

theorem TState.drives.ne_reading {x : TState} (h : x.drives) : x ≠ .reading := by
  rcases h with h | h | h | h <;> rw [h] <;> exact TState.noConfusion

/-- Ticks left until the line is switched to input, in the states that drive the line (R165 to R168, R174, R175). -/
def Transport.ticksToSwitch (c : Config) (t : Transport) : Nat :=
  match t.tstate with
  | .writing =>
    t.timer + (t.txCount - t.txQueued) * (10 * c.oversample) + c.guard1Ticks + c.guard2aTicks + c.guard2bTicks
  | .delay => t.timer + c.guard2aTicks + c.guard2bTicks
  | .readSync1 => t.timer + c.guard2bTicks
  | .readSync2 => t.timer
  | .idle | .writeSync | .reading | .complete | .error => 0

/-- The most `EV_UNIT` that can fall due in one tick before the capture begins. -/
def TState.dueBound : TState → Nat
  | .writing => 4
  | .delay => 3
  | .readSync1 => 2
  | .readSync2 => 1
  | .idle | .writeSync | .reading | .complete | .error => 0

theorem TState.drives.dueBound_pos {x : TState} (h : x.drives) : 0 < x.dueBound := by
  rcases h with h | h | h | h <;> rw [h] <;> decide

theorem dueBound_le (x : TState) : x.dueBound ≤ 4 := by cases x <;> decide

/-- Where the Transport stands after `k` ticks of a transfer of `buf`, `left` ticks before the switch to input: it drives the
line or has just armed the capture, and the line shows the sample of the last tick (R174, R175). -/
structure Transport.OnSchedule (c : Config) (buf : List Byte) (k left : Nat) (t : Transport) : Prop where
  phase : t.tstate.drives ∧ t.lineDir = .output ∨ t.tstate = .reading ∧ t.samples = [] ∧ t.timer = captureLen c
  left_eq : t.ticksToSwitch c = left
  driven_eq : t.driven = k
  buffer : t.txBuf.take t.txCount = buf
  level : ∀ j, k = j + 1 → t.lineLevel = (writeWaveform c buf buf.length).getD j true

section
variable {c : Config} {buf : List Byte} {k left : Nat} {t : Transport}

theorem ticksToSwitch_pos (hd : t.tstate.drives) (ht : 0 < t.timer) : 0 < t.ticksToSwitch c := by
  unfold Transport.ticksToSwitch
  rcases hd with hs | hs | hs | hs <;> simp only [hs] <;> omega

/-- Before the switch the Transport drives the line. -/
theorem Transport.OnSchedule.drives (h : t.OnSchedule c buf k (left + 1)) : t.tstate.drives ∧ t.lineDir = .output := by
  refine h.phase.resolve_right fun ⟨hs, _, _⟩ => ?_
  have hleft := h.left_eq
  simp [Transport.ticksToSwitch, hs] at hleft

/-- At the switch the capture is armed. -/
theorem Transport.OnSchedule.switched (h : t.OnSchedule c buf k 0) (ht : 0 < t.timer) :
    t.tstate = .reading ∧ t.samples = [] ∧ t.timer = captureLen c := by
  refine h.phase.resolve_left fun ⟨hd, _⟩ => ?_
  exact absurd h.left_eq (ticksToSwitch_pos hd ht).ne'

/-- An `EV_UNIT` that is due takes no time: it arms the timer anew, or brings the Transport one phase further. -/
theorem unitDone_onSchedule (h : t.OnSchedule c buf k left) (hd : t.tstate.drives) (hdir : t.lineDir = .output)
    (h0 : t.timer = 0) :
    (t.unitDone c []).OnSchedule c buf k left ∧
      (0 < (t.unitDone c []).timer ∨ (t.unitDone c []).tstate.dueBound < t.tstate.dueBound) := by
  obtain ⟨-, hleft, hdriven, hbuf, hlevel⟩ := h
  have hos := c.oversample_ge
  rcases hd with hs | hs | hs | hs <;> simp only [Transport.ticksToSwitch, hs, h0] at hleft
  · by_cases hq : t.txQueued < t.txCount
    · rw [unitDone_queue c [] t hs hq]
      refine ⟨⟨.inl ⟨.inl hs, hdir⟩, ?_, hdriven, hbuf, hlevel⟩, .inl (by simp; omega)⟩
      have hmore : t.txCount - t.txQueued = t.txCount - (t.txQueued + 1) + 1 := by omega
      simp only [Transport.ticksToSwitch, hs]
      rw [hmore, Nat.add_mul] at hleft
      omega
    · rw [unitDone_written c [] t hs (Nat.le_of_not_lt hq)]
      refine ⟨⟨.inl ⟨.inr (.inl rfl), hdir⟩, ?_, hdriven, hbuf, hlevel⟩, .inr (by simp [hs, TState.dueBound])⟩
      rw [Nat.sub_eq_zero_of_le (Nat.le_of_not_lt hq)] at hleft
      simp only [Transport.ticksToSwitch]
      omega
  · rw [unitDone_delay c [] t hs]
    refine ⟨⟨.inl ⟨.inr (.inr (.inl rfl)), hdir⟩, ?_, hdriven, hbuf, hlevel⟩, .inr (by simp [hs, TState.dueBound])⟩
    simp only [Transport.ticksToSwitch]
    omega
  · rw [unitDone_readSync1 c [] t hs]
    refine ⟨⟨.inl ⟨.inr (.inr (.inr rfl)), hdir⟩, ?_, hdriven, hbuf, hlevel⟩, .inr (by simp [hs, TState.dueBound])⟩
    simp only [Transport.ticksToSwitch]
    omega
  · rw [unitDone_readSync2 c [] t hs]
    exact ⟨⟨.inr ⟨rfl, rfl, rfl⟩, hleft, hdriven, hbuf, hlevel⟩, .inl (captureLen_pos c)⟩

/-- The events due in a tick leave a running timer, also through guards of length 0. -/
theorem raiseDue_onSchedule (n : Nat) : ∀ {t : Transport}, t.OnSchedule c buf k left →
    0 < t.timer ∨ t.tstate.dueBound ≤ n → (t.raiseDue c n).OnSchedule c buf k left ∧ 0 < (t.raiseDue c n).timer := by
  induction n with
  | zero =>
    intro t h hbound
    refine ⟨h, hbound.elim id fun hbound => ?_⟩
    rcases h.phase with ⟨hd, -⟩ | ⟨-, -, ht⟩
    · exact absurd hbound (Nat.not_le.mpr hd.dueBound_pos)
    · exact ht ▸ captureLen_pos c
  | succ n ih =>
    intro t h hbound
    by_cases h0 : t.timer = 0
    · obtain ⟨hd, hdir⟩ := h.phase.resolve_right fun ⟨_, _, ht⟩ => (captureLen_pos c).ne (h0.symm.trans ht)
      obtain ⟨hnext, hdone⟩ := unitDone_onSchedule h hd hdir h0
      rw [raiseDue_go c n t hd.inTransfer h0]
      exact ih hnext (by omega)
    · rw [raiseDue_stop c _ t fun hdue => h0 hdue.2]
      exact ⟨h, Nat.pos_of_ne_zero h0⟩

/-- A tick before the switch drives the next sample of the waveform (R174, R175). -/
theorem tick_onSchedule (lineIn : Level) (h : t.OnSchedule c buf k (left + 1)) (ht : 0 < t.timer) :
    (t.tick c lineIn false).OnSchedule c buf (k + 1) left ∧ 0 < (t.tick c lineIn false).timer := by
  obtain ⟨hd, hdir⟩ := h.drives
  obtain ⟨-, hleft, hdriven, hbuf, -⟩ := h
  have hwave : t.waveLevel c t.driven = (writeWaveform c buf buf.length).getD k true := by
    simp only [Transport.waveLevel, writeWaveform, hbuf, List.take_length, hdriven]
  rw [tick_drive c t lineIn hd.inTransfer hd.ne_reading]
  refine raiseDue_onSchedule 4 ⟨.inl ⟨hd, hdir⟩, ?_, congrArg (· + 1) hdriven, hbuf, ?_⟩ (.inr (dueBound_le _))
  · unfold Transport.ticksToSwitch at hleft ⊢
    rcases hd with hs | hs | hs | hs <;> simp only [hs] at hleft ⊢ <;> omega
  · rintro j ⟨⟩
    exact hwave

theorem afterTicks_onSchedule {lineIn : Nat → Level} {switch : Nat} (h : t.OnSchedule c buf 0 switch) (ht : 0 < t.timer)
    (hk : k ≤ switch) :
    (t.afterTicks c lineIn k).OnSchedule c buf k (switch - k) ∧ 0 < (t.afterTicks c lineIn k).timer := by
  induction k with
  | zero => exact ⟨h, ht⟩
  | succ k ih =>
    obtain ⟨hprev, htimer⟩ := ih (by omega)
    rw [show switch - k = switch - (k + 1) + 1 by omega] at hprev
    exact tick_onSchedule (lineIn k) hprev htimer

/-- The bytes not preloaded take a frame each, which makes `HOLD` what is left of the guards (R175, R178). -/
theorem switch_ticks (c : Config) {n : Nat} (h1 : 1 ≤ n) (h12 : n ≤ 12) :
    (c.idleBits + 10) * c.oversample + (n - min c.preloadBytes n) * (10 * c.oversample)
        + c.guard1Ticks + c.guard2aTicks + c.guard2bTicks
      = (c.idleBits + 10 * n) * c.oversample + holdTicks c n := by
  have hpre := c.preload_ge
  obtain ⟨e, he⟩ : ∃ e, min c.preloadBytes n = e + 1 := Nat.exists_eq_add_one.mpr (by omega)
  obtain ⟨d, rfl⟩ : ∃ d, n = e + 1 + d := Nat.exists_eq_add_of_le (by omega)
  have hhold : e * 10 * c.oversample ≤ c.guard1Ticks + c.guard2aTicks + c.guard2bTicks :=
    (Nat.mul_le_mul_right _ (Nat.mul_le_mul_right _ (by omega))).trans c.hold_ge
  rw [holdTicks, he, Nat.add_sub_cancel_left, Nat.add_sub_cancel]
  have hframes : (c.idleBits + 10 * (e + 1 + d)) * c.oversample =
      (c.idleBits + 10) * c.oversample + e * 10 * c.oversample + d * (10 * c.oversample) := by ring
  omega

/-- An accepted `T_START` begins the schedule (R163, R174). -/
theorem start_onSchedule {line rc : Nat} {t0 : Transport} (hstart : t0.start c line buf rc = some t) :
    t.OnSchedule c buf 0 ((c.idleBits + 10 * buf.length) * c.oversample + holdTicks c buf.length) ∧ 0 < t.timer := by
  obtain ⟨-, hb, hb', -, -, rfl⟩ := start_cases c line buf rc t0 t hstart
  have hos := c.oversample_ge
  exact ⟨⟨.inl ⟨.inl rfl, rfl⟩, switch_ticks c hb hb', rfl, List.take_left, fun _ h => nomatch h⟩,
    Nat.mul_pos (by omega) (by omega)⟩

/-! ### The capture -/

/-- `j` ticks of the capture are over: their line levels are stored, and the rest of the capture is to come (R176). -/
structure Transport.CapturedTicks (c : Config) (level : Nat → Level) (j : Nat) (t : Transport) : Prop where
  reading : t.tstate = .reading
  samples_eq : t.samples = (List.range j).map level
  timer_eq : t.timer + j = captureLen c

theorem afterTicks_capturedTicks {lineIn : Nat → Level} {switch : Nat}
    (h : (t.afterTicks c lineIn switch).CapturedTicks c (fun j => lineIn (switch + j)) 0) (j : Nat) (hj : j < captureLen c) :
    (t.afterTicks c lineIn (switch + j)).CapturedTicks c (fun j => lineIn (switch + j)) j := by
  induction j with
  | zero => exact h
  | succ j ih =>
    obtain ⟨hs, hsamples, htimer⟩ := ih (by omega)
    rw [← Nat.add_assoc, Transport.afterTicks, tick_storeSample _ hs (by omega)]
    exact ⟨hs, by simp [hsamples, List.range_succ], by simp only; omega⟩

/-- The last tick of the capture completes the transfer with the samples of all its ticks (R169, R176). -/
theorem tick_completes {level : Nat → Level} {j : Nat} (h : t.CapturedTicks c level j) (hj : j + 1 = captureLen c) :
    (t.tick c (level j) false).tstate = .complete ∧
      (t.tick c (level j) false).samples = (List.range (captureLen c)).map level := by
  obtain ⟨hs, hsamples, htimer⟩ := h
  rw [tick_lastSample _ hs (by omega), unitDone_reading c _ t hs, hsamples]
  refine ⟨rfl, ?_⟩
  have hall : (List.range j).map level ++ [level j] = (List.range (captureLen c)).map level := by
    rw [← hj, List.range_succ, List.map_append, List.map_singleton]
  simp only [hall]
  rw [fillTo_of_le _ _ _ (by simp), List.take_of_length_le (by simp)]

end

/-- Settles O25: `Transport.OnSchedule` up to the switch to input, `Transport.CapturedTicks` from there on. -/
theorem lineCarriesTheWriteWaveform : Obligations.LineCarriesTheWriteWaveform := by
  unfold Obligations.LineCarriesTheWriteWaveform
  intro c line buf rc t0 t lineIn hstart switch W
  obtain ⟨hsched, htimer⟩ := start_onSchedule hstart
  have hdriving : ∀ k, k ≤ switch → (t.afterTicks c lineIn k).OnSchedule c buf k (switch - k) ∧
      0 < (t.afterTicks c lineIn k).timer := fun k hk => afterTicks_onSchedule hsched htimer hk
  have hbegin : (t.afterTicks c lineIn switch).CapturedTicks c (fun j => lineIn (switch + j)) 0 := by
    obtain ⟨hswitch, htimer'⟩ := hdriving switch (Nat.le_refl _)
    rw [Nat.sub_self] at hswitch
    obtain ⟨hs, hsamples, hlen⟩ := hswitch.switched htimer'
    exact ⟨hs, hsamples, hlen⟩
  have hcapture := afterTicks_capturedTicks hbegin
  obtain ⟨last, hlast⟩ := Nat.exists_eq_add_one.mpr (captureLen_pos c)
  have hend := tick_completes (hcapture last (by omega)) hlast.symm
  refine ⟨fun k hk => ?level, fun k hk => ?direction, fun k hk hk' => ?reading, ?complete, ?samples⟩
  case level =>
    have hwave := (hdriving (k + 1) hk).1.level k rfl
    rwa [writeWaveform, List.take_length] at hwave
  case direction =>
    obtain ⟨hk', -⟩ := hdriving k hk.le
    rw [show switch - k = switch - (k + 1) + 1 by omega] at hk'
    exact hk'.drives.2
  case reading =>
    obtain ⟨j, rfl⟩ := Nat.exists_eq_add_of_le hk
    exact (hcapture j (by omega)).reading
  case complete => exact hlast ▸ hend.1
  case samples => rw [← hend.2, hlast]; rfl

end Sys2Proof.Machine
end

section
/-! No step loses a write: a slot still to be written stays so until its WRITE is accepted and counted (R202, R208, R209, R221,
R223 (a)). -/

namespace Sys2Proof.Machine

/-- The value of slot `j` has still to reach the chip: the slot is dirty, or its WRITE is in flight. -/
def Driver.Outstanding (d : Driver) (j : WSlot) : Prop := (d.w.get j).dirty = true ∨ d.pending = .write j

/-- The WRITE of slot `j` that was in flight in `d` is counted in `d'`, and the slot was not reconfigured meanwhile. -/
def Driver.WriteCounted (d d' : Driver) (j : WSlot) : Prop :=
  d.pending = .write j ∧ (d.w.get j).dirty = false ∧ d'.numWrites = d.numWrites + 1

/-- No write of `d` is lost in `d'` (R223 (a)). -/
def Driver.LosesNoWrite (d d' : Driver) : Prop := ∀ j, d.Outstanding j → d'.Outstanding j ∨ d.WriteCounted d' j

/-- Every outstanding write of `d` is outstanding in `d'`, and none was counted. -/
structure Driver.KeepsWrites (d d' : Driver) : Prop where
  outstanding : ∀ j, d.Outstanding j → d'.Outstanding j
  numWrites : d'.numWrites = d.numWrites

section
variable {c : Config} {d d' : Driver} {j : WSlot}

/-! ### Drivers -/

theorem Driver.KeepsWrites.refl : d.KeepsWrites d := ⟨fun _ h => h, rfl⟩

theorem Driver.KeepsWrites.losesNoWrite (h : d.KeepsWrites d') : d.LosesNoWrite d' := fun j hj => .inl (h.outstanding j hj)

theorem Driver.LosesNoWrite.trans_keepsWrites {d'' : Driver} (h : d.LosesNoWrite d') (h' : d'.KeepsWrites d'') :
    d.LosesNoWrite d'' := fun j hj =>
  (h j hj).imp (h'.outstanding j) fun ⟨hp, hclean, hn⟩ => ⟨hp, hclean, h'.numWrites.trans hn⟩

theorem set_dirty_true {f : WriteFile} (i : WSlot) (h : (f.get j).dirty = true ∨ j = i) :
    ((f.set i { f.get i with dirty := true }).get j).dirty = true := by
  rw [get_set]
  split
  · rfl
  · next hji => exact h.resolve_right hji

/-- A configuration command makes slots dirty and never clean (R280). -/
theorem configured_keepsWrites (h : d.Configured d') : d.KeepsWrites d' := by
  induction h with
  | settings => exact ⟨fun _ hj => hj, rfl⟩
  | update h i v ih =>
    refine ⟨fun j hj => (ih.outstanding j hj).imp_left fun hdirty => ?_, ih.numWrites⟩
    rw [updateRegister_w, get_set]
    split
    · rfl
    · exact hdirty

/-- `E_START` cleans the slot it sends, whose WRITE is then in flight (R202). -/
theorem choose_keepsWrites (hp : d.pending = .none) : d.KeepsWrites d.choose := by
  have hdirty : ∀ j, d.Outstanding j → (d.w.get j).dirty = true := fun j hj =>
    hj.resolve_right fun hw => nomatch hp.symm.trans hw
  rcases choose_cases d with ⟨i, -, hd⟩ | ⟨-, hd⟩ <;> rw [hd]
  · refine ⟨fun j hj => ?_, rfl⟩
    by_cases hji : j = i
    · exact .inr (congrArg Pending.write hji.symm)
    · exact .inl (by rw [get_set, if_neg hji]; exact hdirty j hj)
  · exact ⟨fun j hj => .inl (hdirty j hj), rfl⟩

/-- `E_TIMEOUT` makes the slot in flight dirty again (R221). -/
theorem timeOut_keepsWrites (d : Driver) : d.KeepsWrites d.timeOut := by
  refine ⟨fun j hj => .inl ?_, by rw [timeOut_eq]⟩
  rw [timeOut_eq]
  cases hp : d.pending with
  | write i => exact set_dirty_true i (hj.imp_right fun hw => Pending.write.inj (hw.symm.trans hp))
  | read k | none => exact hj.resolve_right fun hw => nomatch hp.symm.trans hw

/-- The response leaves a slot dirty unless its WRITE is accepted (R208, R209). -/
theorem judge_dirty_or_counted (c : Config) (interval : Nat) (rx : List Byte) (hj : d.Outstanding j) :
    ((d.judge c interval rx).w.get j).dirty = true ∨ d.WriteCounted (d.judge c interval rx) j := by
  unfold Driver.judge
  split
  case h_1 i hp =>
    rcases finishWrite_cases d i rx hp with ⟨-, hd⟩ | ⟨-, hd⟩ <;> rw [hd]
    · by_cases hdirty : (d.w.get j).dirty = true
      · exact .inl hdirty
      · exact .inr ⟨hj.resolve_left hdirty, Bool.eq_false_of_not_eq_true hdirty, rfl⟩
    · exact .inl (set_dirty_true i (hj.imp_right fun hw => Pending.write.inj (hw.symm.trans hp)))
  case h_2 k hp =>
    have hdirty := hj.resolve_right fun hw => nomatch hp.symm.trans hw
    rcases finishRead_cases c interval rx k d hp with ⟨-, hd⟩ | ⟨-, hd⟩ <;> rw [hd] <;> exact .inl hdirty
  case h_3 hp => exact .inl (hj.resolve_right fun hw => nomatch hp.symm.trans hw)

/-- The bring-up test makes slots dirty and never clean (R246). -/
theorem bringUp_keepsWrites (c : Config) (d : Driver) : d.KeepsWrites (d.bringUp c) := by
  rcases bringUp_cases c d with hd | ⟨-, hd | hd⟩ <;> rw [hd]
  · exact .refl
  · exact ⟨fun _ hj => hj, rfl⟩
  · refine ⟨fun j hj => hj.imp_left fun hdirty => ?_, rfl⟩
    simp only [Driver.widen, get_mapSlots]
    split
    · rfl
    · exact hdirty

theorem done_losesNoWrite (c : Config) (interval : Nat) (rx : List Byte) (d : Driver) :
    d.LosesNoWrite (d.done c interval rx) := by
  have hjudge : d.LosesNoWrite { d.judge c interval rx with pending := .none } :=
    fun _ hj => (judge_dirty_or_counted c interval rx hj).imp_left .inl
  exact hjudge.trans_keepsWrites (bringUp_keepsWrites c _)

end

/-! ### The block -/

/-- No write is lost of a driver that has power before and after (R223 (a)). -/
def State.LosesNoWrite (s t : State) : Prop :=
  ∀ (i : Nat) (d d' : Driver), s.drivers[i]? = some d → t.drivers[i]? = some d' →
    d.state ≠ .noPower → d'.state ≠ .noPower → d.LosesNoWrite d'

section
variable {c : Config} {s t : State} {i : Nat} {d : Driver}

theorem State.LosesNoWrite.of_drivers_eq (h : t.drivers = s.drivers) : s.LosesNoWrite t := by
  intro i d d' hd hd' _ _
  rw [h] at hd'
  cases hd.symm.trans hd'
  exact Driver.KeepsWrites.refl.losesNoWrite

/-- After `INIT`, power loss or `SHUTDOWN` no driver has power (R250, R262, R264). -/
theorem State.LosesNoWrite.of_noPower (h : ∀ (i : Nat) (d : Driver), t.drivers[i]? = some d → d.state = .noPower) :
    s.LosesNoWrite t :=
  fun i _ d' _ hd' _ hpower => absurd (h i d' hd') hpower

theorem State.LosesNoWrite.of_powerOff (h : t.drivers = s.drivers.map Driver.powerOff) : s.LosesNoWrite t := by
  refine .of_noPower fun i d hd => ?_
  rw [h, List.getElem?_map] at hd
  obtain ⟨x, -, rfl⟩ := Option.map_eq_some_iff.mp hd
  rfl

theorem onDriver_losesNoWrite (s : State) (drv : Byte) {f : Driver → Option (Driver × Word)}
    (hf : ∀ d d' res, f d = some (d', res) → d.KeepsWrites d') : s.LosesNoWrite (s.onDriver drv f) := by
  rcases onDriver_cases s drv f with hs | ⟨x, x', res, -, hx, hfx, hs⟩ <;> rw [hs]
  · exact .of_drivers_eq rfl
  · intro i d d' hd hd' _ _
    rcases getElem?_set_cases hd' with ⟨rfl, rfl⟩ | ⟨-, hd'⟩
    · cases hx.symm.trans hd
      exact (hf _ _ _ hfx).losesNoWrite
    · cases hd.symm.trans hd'
      exact Driver.KeepsWrites.refl.losesNoWrite

theorem applyPower_of_hasPower (hd : s.drivers[i]? = some d) (hpower : d.state ≠ .noPower) :
    (s.applyPower c).drivers[i]? = some d := by
  rw [State.applyPower, List.getElem?_map, hd, Option.map_some, if_neg hpower]

theorem poll_losesNoWrite (c : Config) (now : Word) (hd : s.drivers[i]? = some d) :
    ∃ d', (s.poll c now).drivers[i]? = some d' ∧ d.LosesNoWrite d' := by
  have hmodify (k : Nat) (f : Driver → Driver) (hf : ∀ x : Driver, x.LosesNoWrite (f x)) :
      ∃ d', (s.drivers.modify k f)[i]? = some d' ∧ d.LosesNoWrite d' := by
    rw [List.getElem?_modify, hd]
    refine ⟨_, rfl, ?_⟩
    split
    · exact hf d
    · exact Driver.KeepsWrites.refl.losesNoWrite
  rcases poll_cases c now s with ⟨-, hs⟩ | ⟨k, -, -, t, -, hs⟩ | ⟨k, -, -, -, hs⟩ | ⟨-, -, -, -, hs⟩ <;> rw [hs]
  · exact ⟨d, hd, Driver.KeepsWrites.refl.losesNoWrite⟩
  · exact hmodify k _ fun x => done_losesNoWrite c _ _ x
  · exact hmodify k _ fun x => (timeOut_keepsWrites x).losesNoWrite
  · exact ⟨d, hd, Driver.KeepsWrites.refl.losesNoWrite⟩

/-- The transfer that is started replaces none: it is started only when there is no current driver. -/
theorem startNext_keepsWrites (c : Config) (now : Word) (hd : s.drivers[i]? = some d)
    (hp : s.currentDriver = none → d.pending = .none) :
    ∃ d', (s.startNext c now).drivers[i]? = some d' ∧ d.KeepsWrites d' := by
  rcases startNext_cases c s now with ⟨-, hs⟩ | ⟨hc, k, x, -, hx, -, hs⟩ <;> rw [hs]
  · exact ⟨d, hd, .refl⟩
  · by_cases hk : k = i
    · subst hk
      cases hd.symm.trans hx
      exact ⟨d.choose, List.getElem?_set_self (List.getElem?_eq_some_iff.mp hd).1, choose_keepsWrites (hp hc)⟩
    · exact ⟨d, (List.getElem?_set_ne hk).trans hd, .refl⟩

/-- While there is no current driver, no transfer is pending (R23). -/
theorem State.Inv.pending_none (h : s.Inv c) (hd : s.drivers[i]? = some d) (hc : s.currentDriver = none) :
    d.pending = .none :=
  Decidable.of_not_not fun hp => nomatch hc.symm.trans ((h.current i d hd).mpr hp)

theorem spin_losesNoWrite (hinv : s.Inv c) (now : Word) (powered : Bool) : s.LosesNoWrite (s.spin c now powered) := by
  unfold State.spin
  split
  · intro i d d' hd hd' hpower _
    obtain ⟨d1, hd1, hpoll⟩ := poll_losesNoWrite c now (applyPower_of_hasPower (c := c) hd hpower)
    obtain ⟨d2, hd2, hstart⟩ :=
      startNext_keepsWrites c now hd1 ((poll_inv (applyPower_inv hinv) now).pending_none hd1)
    cases hd2.symm.trans hd'
    exact hpoll.trans_keepsWrites hstart
  · exact .of_powerOff rfl

theorem spinCmd_losesNoWrite (hinv : s.Inv c) (now : Word) (powered : Bool) : s.LosesNoWrite (s.spinCmd c now powered) := by
  unfold State.spinCmd
  split
  · exact spin_losesNoWrite hinv now powered
  · exact .of_drivers_eq rfl

theorem initCmd_losesNoWrite (c : Config) (n : Word) (s : State) : s.LosesNoWrite (s.initCmd c n) := by
  unfold State.initCmd
  split
  · exact .of_noPower fun i d hd => by rw [initialise_driver (s := s) (c := c) (n := n.toNat) hd]; rfl
  · exact .of_drivers_eq rfl

theorem effect_losesNoWrite {k : Instr} (hinv : s.Inv c) (he : Effect c s k t) : s.LosesNoWrite t := by
  cases he with
  | init n => exact initCmd_losesNoWrite c n s
  | spin now powered => exact spinCmd_losesNoWrite hinv now powered
  | shutdown => exact .of_powerOff rfl
  | getacc drv keep => exact onDriver_losesNoWrite s drv fun d d' res hd => by cases hd; exact ⟨fun _ hj => hj, rfl⟩
  | configure drv hf => exact onDriver_losesNoWrite s drv fun d d' res hd => configured_keepsWrites (hf d d' res hd)
  | direct | event | answer => exact .of_drivers_eq rfl

end

theorem step_losesNoWrite {s t : State} (hinv : s.Inv cfg) (hstep : step s = .next t) : s.LosesNoWrite t := by
  rcases step_cases s t hstep with rfl | ⟨q, harrival⟩
  · exact .of_drivers_eq rfl
  rcases harrival with ⟨k, -, hk, hexec⟩ | rfl | ⟨bytes, rfl⟩ | ⟨_, _, rfl⟩ | ⟨_, rfl⟩
  · have heffect := effect_losesNoWrite (hinv.withInQ q) (exec_effect hk hexec)
    exact heffect
  · exact .of_drivers_eq rfl
  · obtain ⟨u, -, hreply⟩ := receiveReply_event cfg bytes { s with inQ := q }
    rw [hreply]
    exact .of_drivers_eq rfl
  · exact .of_drivers_eq rfl
  · exact .of_drivers_eq rfl

/-- Settles O57: a driver that has power before and after the step loses no write in it. -/
theorem noWriteIsLost : Obligations.NoWriteIsLost := by
  unfold Obligations.NoWriteIsLost
  intro s t i d d' j hinv hstep hd hd' _ hj
  by_cases hpower : d.state = .noPower
  · exact .inr (.inr (.inl hpower))
  by_cases hpower' : d'.state = .noPower
  · exact .inr (.inr (.inr (.inl hpower')))
  exact (step_losesNoWrite hinv hstep i d d' hd hd' hpower hpower' j hj).imp_right .inl

end Sys2Proof.Machine
end

section
/-! The engine's operations on one driver: `E_START` (R202 to R205), the acceptance of a response (R207, R211), `E_DONE`
(R208 to R217) and `E_TIMEOUT` (R221, R222). -/

namespace Sys2Proof.Machine

/-! ### What each of them does to a driver that exists -/

section
variable {c : Config} {s : State} {i : Nat} {d : Driver}

theorem finishTransfer_eq (c : Config) (hd : s.drivers[i]? = some d) :
    s.finishTransfer c i = { s with drivers := s.drivers.set i (d.done c (s.intervalOf i) s.tr.rx) } :=
  updDriver_eq_set s i _ d hd

theorem timeOutTransfer_eq (hd : s.drivers[i]? = some d) :
    s.timeOutTransfer i = { s with drivers := s.drivers.set i d.timeOut, tr := s.tr.abort } := by
  rw [State.timeOutTransfer, updDriver_eq_set s i _ d hd]
  rfl

theorem exec_eStart (hr : s.running = true) (hd : s.drivers[i]? = some d) :
    exec (.eStart i) s = .next (s.startTransfer cfg i) :=
  onInternal_some s i d _ hr hd

theorem exec_eStart_eq (hr : s.running = true) (hd : s.drivers[i]? = some d) :
    exec (.eStart i) s =
      .next { s with drivers := s.drivers.set i d.choose, tr := s.tr.issue cfg i (d.requestBytes cfg) } := by
  rw [exec_eStart hr hd, startTransfer_eq cfg s i d hd]

theorem exec_eDone_delivered (hr : s.running = true) (hd : s.drivers[i]? = some d) (hv : s.tr.rxValid = true) :
    exec (.eDone i) s = .next { s with drivers := s.drivers.set i (d.done cfg (s.intervalOf i) s.tr.rx) } := by
  have hdelivered : ¬(d.pending ≠ .none ∧ s.tr.rxValid = false) := by simp [hv]
  refine (onInternal_some s i d _ hr hd).trans ((if_neg hdelivered).trans ?_)
  rw [finishTransfer_eq cfg hd]

theorem exec_eTimeout (hr : s.running = true) (hd : s.drivers[i]? = some d) :
    exec (.eTimeout i) s = .next { s with drivers := s.drivers.set i d.timeOut, tr := s.tr.abort } := by
  refine (onInternal_some s i d _ hr hd).trans ?_
  rw [timeOutTransfer_eq hd]

end

/-! ### `E_START` -/

section
variable {c : Config} {d : Driver}

theorem choose_of_lowestDirty {i : WSlot} (h : d.lowestDirty = some i) :
    d.choose = { d with pending := .write i, w := d.w.set i { d.w.get i with dirty := false } } := by
  simp only [Driver.choose, h, Driver.setDirty]

theorem choose_of_clean (h : d.lowestDirty = none) : d.choose = { d with pending := .read d.readCursor } := by
  simp only [Driver.choose, h]

theorem requestBytes_of_lowestDirty {i : WSlot} (h : d.lowestDirty = some i) :
    d.requestBytes c = writeTransferBytes (d.w.get i).regNum (d.w.get i).value (d.w.get i).crc := by
  simp only [Driver.requestBytes, h]

theorem requestBytes_of_clean {x : ReadSlot} (h : d.lowestDirty = none) (hx : d.r[d.readCursor]? = some x) :
    d.requestBytes c = readTransferBytes x.regNum := by
  simp only [Driver.requestBytes, h, readSlot_eq c d _ x hx]

end

/-- Settles O30: `choose` takes the lowest dirty slot, and an idle Transport accepts its 12 bytes. -/
theorem eStartSendsTheLowestDirtySlot : Obligations.EStartSendsTheLowestDirtySlot := by
  unfold Obligations.EStartSendsTheLowestDirtySlot
  intro s d drv i hr hd hidle hactive hdirty hlower
  have hlow := lowestDirty_eq_some drv i hactive hdirty hlower
  refine ⟨_, drv.choose, exec_eStart_eq hr hd, choose_of_lowestDirty hlow, ?_⟩
  rw [issue_of_idle cfg s.tr d drv hidle, requestBytes_of_lowestDirty hlow]
  exact ⟨rfl, rfl, rfl, rfl, rfl, rfl, rfl, rfl, rfl, rfl, rfl⟩

/-- Settles O31: `choose` takes the slot at the cursor, and an idle Transport accepts its 4 bytes. -/
theorem eStartReadsAtTheCursor : Obligations.EStartReadsAtTheCursor := by
  unfold Obligations.EStartReadsAtTheCursor
  intro s d drv x hr hd hidle hclean hx
  have hlow := (lowestDirty_eq_none drv).mpr hclean
  refine ⟨_, choose_of_clean hlow ▸ exec_eStart_eq hr hd, ?_⟩
  rw [issue_of_idle cfg s.tr d drv hidle, requestBytes_of_clean hlow hx]
  exact ⟨rfl, rfl, rfl, rfl, rfl, rfl, rfl, rfl, rfl, rfl, rfl⟩

/-! ### Acceptance -/

theorem eightBytes_of_length {rx : List Byte} (h : rx.length = 8) :
    ∃ b0 b1 b2 b3 b4 b5 b6 b7, rx = [b0, b1, b2, b3, b4, b5, b6, b7] :=
  match rx, h with
  | [_, _, _, _, _, _, _, _], _ => ⟨_, _, _, _, _, _, _, _, rfl⟩

theorem judgeWrite_of_length_ne {rx : List Byte} (h : rx.length ≠ 8) (last : Byte) :
    judgeWrite last rx = some .echoMismatch := by
  unfold judgeWrite
  split
  · exact absurd rfl h
  · rfl

theorem judgeRead_of_length_ne {rx : List Byte} (h : rx.length ≠ 8) (reg : RegNum) :
    judgeRead reg rx = some .echoMismatch := by
  unfold judgeRead
  split
  · exact absurd rfl h
  · rfl

/-- The three tests on the eight bytes of the response to a WRITE (R207). -/
theorem judgeWrite_eq_none_iff (last b0 b1 b2 b3 b4 b5 b6 b7 : Byte) :
    judgeWrite last [b0, b1, b2, b3, b4, b5, b6, b7] = none ↔
      b2 = 0x02 ∧ b6.toNat % 16 = (last.toNat + 1) % 16 ∧ b7 = crc8 [b0, b1, b2, b3, b4, b5, b6] := by
  have hreg : readRegByte regIfcnt = 0x02 := by decide
  rw [judgeWrite, hreg, ifcntModulus]
  split_ifs with hb2 hb7 hb6
  · exact iff_of_false nofun fun h => hb2 h.1
  · exact iff_of_false nofun fun h => hb7 h.2.2.symm
  · exact iff_of_false nofun fun h => hb6 h.2.1
  · exact iff_of_true rfl ⟨not_not.mp hb2, not_not.mp hb6, (not_not.mp hb7).symm⟩

/-- The three tests on the eight bytes of the response to a READ (R211). -/
theorem judgeRead_eq_none_iff (reg : RegNum) (b0 b1 b2 b3 b4 b5 b6 b7 : Byte) :
    judgeRead reg [b0, b1, b2, b3, b4, b5, b6, b7] = none ↔ b0 = 0x05 ∧ b1 = 0xFF ∧ b2 = 0#1 ++ reg := by
  rw [judgeRead]
  split
  · next h => exact iff_of_true rfl h
  · next h => exact iff_of_false nofun h

/-- Settles O32: without eight bytes both sides fail, with eight they are the same three tests. -/
theorem writeAcceptance : Obligations.WriteAcceptance := by
  unfold Obligations.WriteAcceptance
  intro last rx
  by_cases hlen : rx.length = 8
  · obtain ⟨b0, b1, b2, b3, b4, b5, b6, b7, rfl⟩ := eightBytes_of_length hlen
    simp [judgeWrite_eq_none_iff]
  · simp [judgeWrite_of_length_ne hlen, hlen]

/-- Settles O33: without eight bytes both sides fail, with eight they are the same three tests, none of them on byte 7. -/
theorem readAcceptance : Obligations.ReadAcceptance := by
  unfold Obligations.ReadAcceptance
  intro reg rx
  by_cases hlen : rx.length = 8
  · obtain ⟨b0, b1, b2, b3, b4, b5, b6, b7, rfl⟩ := eightBytes_of_length hlen
    exact ⟨by simp [judgeRead_eq_none_iff], fun crc => rfl⟩
  · refine ⟨by simp [judgeRead_of_length_ne hlen, hlen], fun crc => ?_⟩
    rw [judgeRead_of_length_ne hlen, judgeRead_of_length_ne (by rwa [List.length_set])]

/-! ### `E_DONE` -/

section
variable {c : Config} {d : Driver}

theorem done_of_write {i : WSlot} (hp : d.pending = .write i) (interval : Nat) (rx : List Byte) :
    d.done c interval rx = Driver.bringUp c { d.finishWrite rx with pending := .none } := by
  simp only [Driver.done, Driver.judge, hp]

theorem done_of_read {k : Nat} (hp : d.pending = .read k) (interval : Nat) (rx : List Byte) :
    d.done c interval rx = Driver.bringUp c { d.finishRead c interval rx k with pending := .none } := by
  simp only [Driver.done, Driver.judge, hp]

/-- An accepted response has its counter byte (R207). -/
theorem ifcntOf_of_accepted {last : Byte} {rx : List Byte} (h : judgeWrite last rx = none) : rx[6]? = some (ifcntOf rx) := by
  by_cases hlen : rx.length = 8
  · rw [ifcntOf, List.getD_eq_getElem?_getD, List.getElem?_eq_getElem (by omega), Option.getD_some]
  · exact nomatch (judgeWrite_of_length_ne hlen last).symm.trans h

/-- A driver with a dirty active slot does not settle (R244). -/
theorem bringUp_of_dirty {i : WSlot} (hactive : i.index < d.nWrite) (hdirty : (d.w.get i).dirty = true) :
    d.bringUp c = d := by
  refine if_neg fun h => ?_
  obtain ⟨-, hclean, -⟩ := (settled_iff d).mp h
  exact nomatch hdirty.symm.trans (hclean i hactive)

/-- After a rejected WRITE the slot is dirty, so the bring-up test does nothing (R209, R216). -/
theorem done_of_rejected_write {i : WSlot} {rx : List Byte} (hp : d.pending = .write i) (hactive : i.index < d.nWrite)
    (hj : judgeWrite d.lastIfCount rx ≠ none) (interval : Nat) :
    d.done c interval rx = { d with
      w := d.w.set i { d.w.get i with dirty := true }, writeErrors := d.writeErrors + 1, pending := .none } := by
  obtain ⟨-, hfin⟩ := (finishWrite_cases d i rx hp).resolve_left fun h => hj h.1
  rw [done_of_write hp, hfin]
  exact bringUp_of_dirty hactive (set_dirty_true i (.inr rfl))

/-- An accepted READ, its value filtered (R213). -/
theorem acceptRead_eq {k : Nat} {x : ReadSlot} (hx : d.r[k]? = some x) (interval : Nat) (rx : List Byte) :
    d.acceptRead c interval rx k = { d with
      r := d.r.set k { x with
        last := plausible c interval d.motorCurrent k (readValueOf rx)
        accum := x.accum ||| plausible c interval d.motorCurrent k (readValueOf rx) }
      numReads := d.numReads + 1, readCursor := (k + 1) % d.maxReadCount
      readCycleDone := if (k + 1) % d.maxReadCount = 0 then true else d.readCycleDone } := by
  have hcycle : (d.readCycleDone || (k + 1) % d.maxReadCount == 0) =
      if (k + 1) % d.maxReadCount = 0 then true else d.readCycleDone := by
    split
    · next h => simp [h]
    · next h => simp [h]
  simp only [Driver.acceptRead, readSlot_eq c d k x hx, hcycle, Driver.setReadSlot]

end

/-- Settles O34: an accepted response stores its counter byte and leaves the slot alone, a rejected one makes it dirty. -/
theorem eDoneOnAWrite : Obligations.EDoneOnAWrite := by
  unfold Obligations.EDoneOnAWrite
  intro s d drv i hr hv hd hp hactive
  rw [exec_eDone_delivered hr hd hv]
  refine ⟨fun hj => ⟨_, ifcntOf_of_accepted hj, ?accepted⟩, fun hj => ?rejected⟩
  case accepted =>
    obtain ⟨-, hfin⟩ := (finishWrite_cases drv i s.tr.rx hp).resolve_right fun h => h.1 hj
    rw [done_of_write hp, hfin]
  case rejected => rw [done_of_rejected_write hp hactive hj]

/-- Settles O35: the response passes the three tests; the stored value is the one the filter gives. -/
theorem eDoneOnAnAcceptedRead : Obligations.EDoneOnAnAcceptedRead := by
  unfold Obligations.EDoneOnAnAcceptedRead
  intro s d k interval drv x reg b3 b2 b1 b0 crc hr hv hd hp hx hreg hrx hint
  have haccept : judgeRead (drv.readSlot cfg k).regNum s.tr.rx = none := by
    rw [readSlot_eq cfg drv k x hx, hrx, judgeRead_eq_none_iff]
    exact ⟨rfl, rfl, hreg⟩
  have hinterval : s.intervalOf d = interval := by rw [State.intervalOf, List.getD_eq_getElem?_getD, hint]; rfl
  have hvalue : readValueOf s.tr.rx = b3 ++ b2 ++ b1 ++ b0 := by rw [hrx]; rfl
  refine ⟨plausible cfg interval drv.motorCurrent k (b3 ++ b2 ++ b1 ++ b0), ?filter, ?effect⟩
  case filter =>
    unfold plausible
    split
    · next h => exact .inl ⟨h.1, h.2, rfl⟩
    · next h => exact .inr ⟨h, rfl⟩
  case effect =>
    obtain ⟨-, hfin⟩ := (finishRead_cases cfg (s.intervalOf d) s.tr.rx k drv hp).resolve_right fun h => h.1 haccept
    rw [exec_eDone_delivered hr hd hv, done_of_read hp, hfin, acceptRead_eq hx, hinterval, hvalue]

/-- Settles O36: the rejected outcome of a READ. -/
theorem eDoneOnARejectedRead : Obligations.EDoneOnARejectedRead := by
  unfold Obligations.EDoneOnARejectedRead
  intro s d k drv x hr hv hd hp hx hreject
  rw [← readSlot_eq cfg drv k x hx] at hreject
  obtain ⟨-, hfin⟩ := (finishRead_cases cfg (s.intervalOf d) s.tr.rx k drv hp).resolve_left fun h => hreject h.1
  rw [exec_eDone_delivered hr hd hv, done_of_read hp, hfin]

/-! ### `E_TIMEOUT` -/

/-- Settles O38: what `E_TIMEOUT` does to the driver, and `T_ABORT` to the Transport. -/
theorem eTimeoutCountsAndAborts : Obligations.ETimeoutCountsAndAborts := by
  unfold Obligations.ETimeoutCountsAndAborts
  intro s d drv hr hd
  exact ⟨[], 0, drv.timeOut, exec_eTimeout hr hd, timeOut_eq drv⟩

end Sys2Proof.Machine
end

section
/-! `SPIN` on a transfer that is too old (R256 to R258). -/

namespace Sys2Proof.Machine

section
variable {c : Config} {s : State} {now : Word} {i : Nat} {d : Driver}

/-- The polling part of `SPIN` on an overdue transfer (R257, R258). -/
theorem poll_overdue (hc : s.currentDriver = some i) (hd : s.drivers[i]? = some d) (hs : s.tr.tstate ≠ .complete)
    (hlate : c.transferTimeout < (now - s.transferStartTime).toNat) :
    s.poll c now = { s with
      drivers := s.drivers.set i d.timeOut, lastServiced := i, currentDriver := none, tr := s.tr.abort } := by
  have hover : s.overdue c now = true := decide_eq_true hlate
  simp only [State.poll, hc, check_not_complete c _ hs, hover, if_true, timeOutTransfer_eq hd]
  rfl

/-- The starting part of `SPIN` when no driver is to be served. -/
theorem startNext_none (hc : s.currentDriver = none) (hn : s.nextDriver = none) : s.startNext c now = s := by
  simp only [State.startNext, hc, hn]

/-- The starting part of `SPIN` when driver `i` is next. -/
theorem startNext_some (hc : s.currentDriver = none) (hn : s.nextDriver = some i) :
    s.startNext c now = { s.startTransfer c i with currentDriver := some i, transferStartTime := now } := by
  simp only [State.startNext, hc, hn]

/-- A powered `SPIN` when every driver has power (R258). -/
theorem spinCmd_powered (hr : s.running = true)
    (hpower : ∀ (j : Nat) (x : Driver), s.drivers[j]? = some x → x.state ≠ .noPower) :
    s.spinCmd c now true = ((s.poll c now).startNext c now).answer true 0 := by
  simp only [State.spinCmd, hr, if_true, State.spin, applyPower_of_powered c s hpower]

/-- A transfer started for a driver that exists, from an idle Transport, goes out on its line (R205). -/
theorem startTransfer_writing (hd : s.drivers[i]? = some d) (hidle : s.tr.tstate = .idle) :
    (s.startTransfer c i).tr.tstate = .writing ∧ (s.startTransfer c i).tr.lineSel = i := by
  rw [startTransfer_eq c s i d hd, issue_of_idle c s.tr i d hidle]
  exact ⟨rfl, rfl⟩

end

/-- Settles O45: the polling part times the transfer out, and the starting part starts what `GETNEXT` gives; neither loses the
write that was in flight. -/
theorem spinTimesOut : Obligations.SpinTimesOut := by
  unfold Obligations.SpinTimesOut
  intro s now
  refine ⟨fun _ => rfl, fun c i d hr hc hd hs hlate hpower => ?_⟩
  have hpoll := poll_overdue hc hd hs hlate
  have hspin := spinCmd_powered (c := c) (now := now) hr hpower
  refine ⟨[], 0, d.timeOut, s.poll c now, timeOut_eq d, hpoll, fun hn => ?nobody, fun e he => ?next, fun j hj => ?kept⟩
  case nobody =>
    rw [hspin, startNext_none (by rw [hpoll]) hn]
    rfl
  case next =>
    obtain ⟨x, hx, -⟩ := eligible_of_nextDriver _ e he
    refine ⟨exec_eStart ((poll_running c now s).trans hr) hx, ?_, startTransfer_writing hx (by rw [hpoll]; rfl)⟩
    rw [hspin, startNext_some (by rw [hpoll]) he]
    rfl
  case kept =>
    have hi : (s.poll c now).drivers[i]? = some d.timeOut := by
      rw [hpoll]
      exact List.getElem?_set_self (List.getElem?_eq_some_iff.mp hd).1
    obtain ⟨x, hx, hstart⟩ := startNext_keepsWrites c now hi fun _ => timeOut_pending d
    exact ⟨x, hspin ▸ hx, hstart.outstanding j ((timeOut_keepsWrites d).outstanding j (.inr hj))⟩

end Sys2Proof.Machine
end

section
/-! The bring-up of a driver: the bring-up test (R244 to R247), what `INIT` makes of the drivers (R262), and the moves of a
driver's state along the bring-up table (R240). -/

namespace Sys2Proof.Machine

/-! ### The bring-up test -/

section
variable {c : Config} {d : Driver}

theorem bringUp_of_not_settled (h : ¬d.settled = true) : d.bringUp c = d := if_neg h

theorem bringUp_of_settled (h : d.settled = true) {x : ReadSlot} (hx : d.r[c.identSlot]? = some x) :
    d.bringUp c = if c.isExtended x.last && !d.widened then d.widen c else { d with state := .ready } := by
  rw [Driver.bringUp, if_pos h, readSlot_eq c d _ x hx]

/-- A widened slot keeps its content; only the extension slots become dirty (R246). -/
theorem widen_get (c : Config) (d : Driver) (i : WSlot) :
    (d.widen c).w.get i = { d.w.get i with
      dirty := if c.nWriteBase ≤ i.index ∧ i.index < c.nWriteExt then true else (d.w.get i).dirty } := by
  simp only [Driver.widen, get_mapSlots]
  split <;> rfl

end

/-- Settles O37: the test acts on a settled driver only, and then the identification and `widened` decide what it does. -/
theorem bringUpTest : Obligations.BringUpTest := by
  unfold Obligations.BringUpTest
  intro c d x hx
  refine ⟨fun h => bringUp_of_not_settled fun hs => h ((settled_iff d).mp hs), fun hstate hclean hcycle => ?settled⟩
  case settled =>
    have hact := bringUp_of_settled ((settled_iff d).mpr ⟨hstate, hclean, hcycle⟩) hx
    refine ⟨fun hready => ?ready, fun hext hnarrow => ⟨(d.widen c).w, ?widens, widen_get c d⟩⟩
    case ready => rw [hact, if_neg (by simpa using hready)]
    case widens =>
      rw [hact, if_pos (by simp [hext, hnarrow])]
      rfl

/-! ### `INIT` -/

theorem getElem?_initialise {n i : Nat} (hi : i < n) (c : Config) (s : State) :
    (s.initialise c n).drivers[i]? = some (initDriver c i) := by
  simp [State.initialise, hi]

/-- Settles O28: in range every driver is the `initDriver` of its index, out of range the command is refused. -/
theorem initGivesEveryField : Obligations.InitGivesEveryField := by
  unfold Obligations.InitGivesEveryField
  intro s n
  refine ⟨fun hone hmax => ?accepted, fun hrange => ⟨[], [], ?refused⟩⟩
  case accepted =>
    have hexec : exec (.init n) s = .next ((s.initialise cfg n.toNat).answer true 0) :=
      congrArg Host.Outcome.next (if_pos ⟨hone, hmax⟩)
    refine ⟨_, [], 0, hexec, rfl, ?count, rfl, rfl, rfl, rfl, rfl, rfl, rfl, rfl, fun i hi => ?driver⟩
    case count => simp [State.initialise, State.nDrivers]
    case driver =>
      refine ⟨initDriver cfg i, getElem?_initialise hi cfg s, rfl, fun j => get_build _ j, ?size, fun k hk => ?slot,
        rfl, rfl, rfl, rfl, rfl, rfl, rfl, rfl, rfl, rfl, rfl, rfl, rfl, rfl, rfl, rfl⟩
      case size => simp [initDriver]
      case slot => simp [initDriver, hk]
  case refused =>
    have hnot : ¬(1 ≤ n.toNat ∧ n.toNat ≤ cfg.maxDrivers) := by omega
    exact congrArg Host.Outcome.next (if_neg hnot)

/-! ### The bring-up table -/

/-- The rows of the bring-up table: the state of a driver after a step, by its state before (R240). -/
inductive DriverState.Moves : DriverState → DriverState → Prop
  /-- Nothing of the bring-up happens to the driver. -/
  | stay (x : DriverState) : Moves x x
  /-- Power-apply (R242). -/
  | powerOn : Moves .noPower .initialising
  /-- The bring-up test passes and does not widen (R247). -/
  | settle : Moves .initialising .ready
  /-- Too many timeouts of a driver that has power (R222). -/
  | absent {x : DriverState} (h : x ≠ .noPower) : Moves x .notInitialised
  /-- Power loss, `INIT` or `SHUTDOWN` (R250, R262, R264). -/
  | powerOff (x : DriverState) : Moves x .noPower

/-- No row of the table is one that R240 forbids. -/
theorem DriverState.Moves.allowed {x y : DriverState} (h : x.Moves y) :
    (x = .ready → y ≠ .initialising) ∧ (x = .notInitialised → y = .notInitialised ∨ y = .noPower) ∧
      (x = .noPower → y = .noPower ∨ y = .initialising) := by
  cases h with
  | stay => exact ⟨fun hx => by simp [hx], .inl, .inl⟩
  | powerOn => exact ⟨nofun, nofun, fun _ => .inr rfl⟩
  | settle => exact ⟨nofun, nofun, nofun⟩
  | absent hpower => exact ⟨nofun, fun _ => .inl rfl, fun hx => absurd hx hpower⟩
  | powerOff => exact ⟨nofun, fun _ => .inr rfl, fun _ => .inl rfl⟩

/-- Each driver's state stays or makes one move of the bring-up table. -/
def State.MovesDrivers (s t : State) : Prop :=
  ∀ (i : Nat) (d d' : Driver), s.drivers[i]? = some d → t.drivers[i]? = some d' → d.state.Moves d'.state

/-! The engine's operations on one driver. -/

section
variable {c : Config} {d : Driver}

theorem judge_state (c : Config) (interval : Nat) (rx : List Byte) (d : Driver) :
    (d.judge c interval rx).state = d.state := by
  unfold Driver.judge
  split
  case h_1 i hp => rcases finishWrite_cases d i rx hp with ⟨-, hd⟩ | ⟨-, hd⟩ <;> rw [hd]
  case h_2 k hp => rcases finishRead_cases c interval rx k d hp with ⟨-, hd⟩ | ⟨-, hd⟩ <;> rw [hd]; rfl
  case h_3 => rfl

theorem bringUp_moves (c : Config) (d : Driver) : d.state.Moves (d.bringUp c).state := by
  rcases bringUp_cases c d with hd | ⟨hs, hd | hd⟩ <;> rw [hd]
  · exact .stay _
  · rw [hs]
    exact .settle
  · exact .stay _

theorem done_moves (c : Config) (interval : Nat) (rx : List Byte) (d : Driver) :
    d.state.Moves (d.done c interval rx).state := by
  rw [← judge_state c interval rx d]
  exact bringUp_moves c { d.judge c interval rx with pending := .none }

theorem timeOut_moves (h : d.state ≠ .noPower) : d.state.Moves d.timeOut.state := by
  rw [timeOut_eq]
  dsimp only
  split
  · exact .absent h
  · exact .stay _

theorem choose_state (d : Driver) : d.choose.state = d.state := by
  rcases choose_cases d with ⟨_, -, hd⟩ | ⟨-, hd⟩ <;> rw [hd]

end

/-! The block. -/

section
variable {c : Config} {s t : State} {i : Nat} {d : Driver}

theorem State.MovesDrivers.of_service (h : t.service = s.service) : s.MovesDrivers t := by
  intro i d d' hd hd'
  have hstate : d'.state = d.state := congrArg (fun v => v.2.2.2.2.2.2.2.1) (driver_service_eq h hd hd')
  rw [hstate]
  exact .stay _

/-- After `INIT`, power loss or `SHUTDOWN` no driver has power (R250, R262, R264). -/
theorem State.MovesDrivers.of_noPower (h : ∀ (i : Nat) (d : Driver), t.drivers[i]? = some d → d.state = .noPower) :
    s.MovesDrivers t := by
  intro i d d' _ hd'
  rw [h i d' hd']
  exact .powerOff _

theorem State.MovesDrivers.of_powerOff (h : t.drivers = s.drivers.map Driver.powerOff) : s.MovesDrivers t := by
  refine .of_noPower fun i d hd => ?_
  rw [h, List.getElem?_map] at hd
  obtain ⟨x, -, rfl⟩ := Option.map_eq_some_iff.mp hd
  rfl

/-- Only the current driver can be retired (R223 (d)). -/
theorem poll_getElem?_of_ne_current (hi : s.currentDriver ≠ some i) (now : Word) :
    (s.poll c now).drivers[i]? = s.drivers[i]? := by
  rcases poll_cases c now s with ⟨-, hs⟩ | ⟨k, hk, -, t, -, hs⟩ | ⟨k, hk, -, -, hs⟩ | ⟨-, -, -, -, hs⟩ <;> rw [hs]
  all_goals
    have hki : k ≠ i := fun h => hi (h ▸ hk)
    exact updDriver_getElem?_ne _ k i _ hki

theorem poll_moves (hd : s.drivers[i]? = some d) (hpower : d.state ≠ .noPower) (now : Word) :
    ∃ d', (s.poll c now).drivers[i]? = some d' ∧ d.state.Moves d'.state := by
  have hself (f : Driver → Driver) (u : State) (hu : u.drivers = s.drivers) :
      (u.updDriver i f).drivers[i]? = some (f d) := by
    rw [updDriver_getElem?_self, hu, hd, Option.map_some]
  by_cases hi : s.currentDriver = some i
  · rcases poll_cases c now s with ⟨-, hs⟩ | ⟨k, hk, -, t, -, hs⟩ | ⟨k, hk, -, -, hs⟩ | ⟨-, -, -, -, hs⟩ <;> rw [hs]
    · exact ⟨d, hd, .stay _⟩
    · cases hi.symm.trans hk
      exact ⟨_, hself _ (s.withTr t) rfl, done_moves c _ _ d⟩
    · cases hi.symm.trans hk
      exact ⟨_, hself _ s rfl, timeOut_moves hpower⟩
    · exact ⟨d, hd, .stay _⟩
  · exact ⟨d, (poll_getElem?_of_ne_current hi now).trans hd, .stay _⟩

theorem startNext_state {d' : Driver} (hd : s.drivers[i]? = some d) (now : Word)
    (hd' : (s.startNext c now).drivers[i]? = some d') : d'.state = d.state := by
  rcases startNext_cases c s now with ⟨-, hs⟩ | ⟨-, k, x, -, hx, -, hs⟩ <;> rw [hs] at hd'
  · cases hd.symm.trans hd'
    rfl
  · rcases getElem?_set_cases hd' with ⟨rfl, rfl⟩ | ⟨-, hd'⟩
    · cases hd.symm.trans hx
      exact choose_state d
    · cases hd.symm.trans hd'
      rfl

theorem applyPower_of_noPower (hd : s.drivers[i]? = some d) (hpower : d.state = .noPower) :
    (s.applyPower c).drivers[i]? = some (d.powerApply c) := by
  rw [State.applyPower, List.getElem?_map, hd, Option.map_some, if_pos hpower]

/-- A driver without power is not the current one: it has no transfer in flight (R23, R41, R251). -/
theorem State.Inv.ne_current_of_noPower (h : s.Inv c) (hd : s.drivers[i]? = some d) (hpower : d.state = .noPower) :
    s.currentDriver ≠ some i := fun hc =>
  (h.current i d hd).mp hc ((h.driver i d hd).pending_of_noPower hpower)

/-- The power-apply and the retirement of one `SPIN` concern different drivers, so no driver makes two moves. -/
theorem spin_moves (hinv : s.Inv c) (now : Word) (powered : Bool) : s.MovesDrivers (s.spin c now powered) := by
  unfold State.spin
  split
  · intro i d d' hd hd'
    by_cases hpower : d.state = .noPower
    · have hcurrent : (s.applyPower c).currentDriver ≠ some i := hinv.ne_current_of_noPower hd hpower
      have hpoll := (poll_getElem?_of_ne_current (c := c) hcurrent now).trans (applyPower_of_noPower hd hpower)
      rw [startNext_state hpoll now hd', hpower]
      exact .powerOn
    · obtain ⟨x, hx, hmove⟩ := poll_moves (c := c) (applyPower_of_hasPower (c := c) hd hpower) hpower now
      rwa [startNext_state hx now hd']
  · exact .of_powerOff rfl

theorem spinCmd_moves (hinv : s.Inv c) (now : Word) (powered : Bool) : s.MovesDrivers (s.spinCmd c now powered) := by
  unfold State.spinCmd
  split
  · exact spin_moves hinv now powered
  · exact .of_service rfl

theorem initCmd_moves (c : Config) (n : Word) (s : State) : s.MovesDrivers (s.initCmd c n) := by
  unfold State.initCmd
  split
  · exact .of_noPower fun i d hd => by rw [initialise_driver (s := s) (c := c) (n := n.toNat) hd]; rfl
  · exact .of_service rfl

theorem effect_moves {k : Instr} (hinv : s.Inv c) (he : Effect c s k t) : s.MovesDrivers t := by
  cases he with
  | init n => exact initCmd_moves c n s
  | spin now powered => exact spinCmd_moves hinv now powered
  | shutdown => exact .of_powerOff rfl
  | getacc drv keep =>
    refine .of_service (onDriver_service s drv fun d d' res hd => ?_)
    cases hd
    exact takeAccum_service c keep d
  | configure drv hf => exact .of_service (onDriver_service s drv fun d d' res hd => configured_service (hf d d' res hd))
  | direct | event | answer => exact .of_service rfl

end

theorem step_moves {s t : State} (hinv : s.Inv cfg) (hstep : step s = .next t) : s.MovesDrivers t := by
  rcases step_cases s t hstep with rfl | ⟨q, harrival⟩
  · exact .of_service rfl
  rcases harrival with ⟨k, -, hk, hexec⟩ | rfl | ⟨bytes, rfl⟩ | ⟨_, _, rfl⟩ | ⟨_, rfl⟩
  · have heffect := effect_moves (hinv.withInQ q) (exec_effect hk hexec)
    exact heffect
  · exact .of_service rfl
  · obtain ⟨u, -, hreply⟩ := receiveReply_event cfg bytes { s with inQ := q }
    rw [hreply]
    exact .of_service rfl
  · exact .of_service rfl
  · exact .of_service rfl

/-- Settles O59: a step makes at most one move of the bring-up table, and none of its rows is a forbidden one. -/
theorem driverStatesFollowTheTable : Obligations.DriverStatesFollowTheTable := by
  unfold Obligations.DriverStatesFollowTheTable
  intro s t i d d' hinv hstep hd hd'
  exact (step_moves hinv hstep i d d' hd hd').allowed

end Sys2Proof.Machine
end

section
/-! The rotation of the scheduler: which driver `GETNEXT` gives (R252), and when it gives the one last serviced again
(R254). -/

namespace Sys2Proof.Machine

/-- The `k`-th candidate of the rotation after the driver last serviced (R252). -/
def State.candidate (s : State) (k : Nat) : Nat := (s.lastServiced + k) % s.nDrivers

/-- There is a driver `i`, and it is in the scheduler's set (R251). -/
def State.eligibleAt (s : State) (i : Nat) : Bool := s.drivers[i]?.any Driver.eligible

section
variable {s : State} {i : Nat}

theorem eligibleAt_iff : s.eligibleAt i = true ↔ ∃ d, s.drivers[i]? = some d ∧ d.maxReadCount ≠ 0 := by
  simp only [State.eligibleAt, Option.any_eq_true, eligible_iff]

theorem eligibleAt_eq_false_iff : s.eligibleAt i = false ↔ ∀ d, s.drivers[i]? = some d → d.maxReadCount = 0 := by
  rw [← Bool.not_eq_true, eligibleAt_iff]
  push Not
  rfl

theorem lt_nDrivers_of_eligibleAt (h : s.eligibleAt i = true) : i < s.nDrivers := by
  obtain ⟨_, hd, -⟩ := eligibleAt_iff.mp h
  exact (List.getElem?_eq_some_iff.mp hd).1

theorem searchNext_succ (s : State) (n k : Nat) :
    s.searchNext (n + 1) k =
      if s.eligibleAt (s.candidate k) then some (s.candidate k) else s.searchNext n (k + 1) := by
  cases hd : s.drivers[(s.lastServiced + k) % s.nDrivers]? <;>
    simp only [State.searchNext, State.eligibleAt, State.candidate, hd] <;> rfl

/-- The search takes the first eligible candidate. -/
theorem searchNext_eq_find? (s : State) (n k : Nat) :
    s.searchNext n k = ((List.range' k n).find? fun j => s.eligibleAt (s.candidate j)).map s.candidate := by
  induction n generalizing k with
  | zero => rfl
  | succ n ih =>
    rw [searchNext_succ, List.range'_succ, List.find?_cons, ih]
    cases s.eligibleAt (s.candidate k) <;> rfl

/-- `GETNEXT` gives the first eligible candidate (R252). -/
theorem nextDriver_eq_some_iff :
    s.nextDriver = some i ↔ ∃ k, 1 ≤ k ∧ k ≤ s.nDrivers ∧ i = s.candidate k ∧ s.eligibleAt i = true ∧
      ∀ j, 1 ≤ j → j < k → s.eligibleAt (s.candidate j) = false := by
  simp only [State.nextDriver, searchNext_eq_find?, Option.map_eq_some_iff, List.find?_range'_eq_some, List.mem_range'_1,
    Bool.not_eq_true']
  constructor
  · rintro ⟨k, ⟨he, ⟨hk, hlt⟩, hfirst⟩, rfl⟩
    exact ⟨k, hk, by omega, rfl, he, hfirst⟩
  · rintro ⟨k, hk, hle, rfl, he, hfirst⟩
    exact ⟨k, ⟨he, ⟨hk, by omega⟩, hfirst⟩, rfl⟩

/-- The rotation reaches every driver. -/
theorem exists_candidate_eq (hi : i < s.nDrivers) : ∃ k, 1 ≤ k ∧ k ≤ s.nDrivers ∧ s.candidate k = i := by
  have hdiv := Nat.mod_add_div (s.lastServiced + 1) s.nDrivers
  have hmod := Nat.mod_lt (s.lastServiced + 1) (Nat.zero_lt_of_lt hi)
  generalize (s.lastServiced + 1) % s.nDrivers = r at hdiv hmod
  generalize (s.lastServiced + 1) / s.nDrivers = q at hdiv
  by_cases hr : r ≤ i
  · refine ⟨i - r + 1, by omega, by omega, ?_⟩
    have hsum : s.lastServiced + (i - r + 1) = s.nDrivers * q + i := by omega
    rw [State.candidate, hsum, Nat.mul_add_mod, Nat.mod_eq_of_lt hi]
  · refine ⟨i + s.nDrivers - r + 1, by omega, by omega, ?_⟩
    have hsum : s.lastServiced + (i + s.nDrivers - r + 1) = s.nDrivers * (q + 1) + i := by rw [Nat.mul_succ]; omega
    rw [State.candidate, hsum, Nat.mul_add_mod, Nat.mod_eq_of_lt hi]

theorem nextDriver_eq_none_iff : s.nextDriver = none ↔ ∀ i, s.eligibleAt i = false := by
  simp only [State.nextDriver, searchNext_eq_find?, Option.map_eq_none_iff, List.find?_eq_none, List.mem_range'_1,
    Bool.not_eq_true]
  constructor
  · intro h i
    by_contra he
    obtain ⟨k, hk, hle, rfl⟩ := exists_candidate_eq (lt_nDrivers_of_eligibleAt (Bool.eq_true_of_not_eq_false he))
    exact he (h k ⟨hk, by omega⟩)
  · exact fun h k _ => h _

theorem exec_getNext (hr : s.running = true) :
    exec .getNext s = .next (s.answer s.nextDriver.isSome (BitVec.ofNat 32 (s.nextDriver.getD 0))) := by
  refine (if_pos hr).trans ?_
  cases s.nextDriver <;> rfl

/-- Between two candidates that are the driver last serviced, the whole rotation lies. -/
theorem eq_nDrivers_of_candidate_eq_lastServiced {k : Nat} (hlast : s.lastServiced < s.nDrivers) (hk : 1 ≤ k)
    (hle : k ≤ s.nDrivers) (h : s.candidate k = s.lastServiced) : k = s.nDrivers := by
  by_contra hne
  rw [State.candidate] at h
  by_cases hwrap : s.lastServiced + k < s.nDrivers
  · rw [Nat.mod_eq_of_lt hwrap] at h
    omega
  · rw [Nat.mod_eq_sub_mod (by omega), Nat.mod_eq_of_lt (by omega)] at h
    omega

end

/-- Settles O40: `GETNEXT` answers the first eligible candidate, and the candidates are all the drivers. -/
theorem getNextIsRoundRobin : Obligations.GetNextIsRoundRobin := by
  unfold Obligations.GetNextIsRoundRobin
  intro s
  refine ⟨fun i => ?first, ?nobody, exec_getNext⟩
  case first => simpa only [eligibleAt_iff, eligibleAt_eq_false_iff, State.candidate] using nextDriver_eq_some_iff
  case nobody => simpa only [eligibleAt_eq_false_iff] using nextDriver_eq_none_iff

/-- Settles O41: the driver last serviced is the last candidate, so every other was found not eligible before it. -/
theorem servedTwiceOnlyWhenAlone : Obligations.ServedTwiceOnlyWhenAlone := by
  unfold Obligations.ServedTwiceOnlyWhenAlone
  rintro s _ rfl hnext j x hj hx
  obtain ⟨k, hk, hle, hcand, he, hfirst⟩ := nextDriver_eq_some_iff.mp hnext
  have hlast := lt_nDrivers_of_eligibleAt he
  obtain rfl := eq_nDrivers_of_candidate_eq_lastServiced hlast hk hle hcand.symm
  obtain ⟨m, hm, hmle, rfl⟩ := exists_candidate_eq (List.getElem?_eq_some_iff.mp hx).1
  have hne : m ≠ s.nDrivers := fun h => hj (by rw [h, ← hcand])
  exact eligibleAt_eq_false_iff.mp (hfirst m hm (by omega)) x hx

end Sys2Proof.Machine
end

section
/-! `SHUTDOWN` and `SPIN`, the ways `SPIN` can go: without power (R250), waiting (R257), with no transfer in flight (R252), with a
completed one (R253), and the first time with power (R242, R261). -/

namespace Sys2Proof.Machine

/-- Settles O29: while the engine runs the command is `shutDown`, whose Transport is the aborted one. -/
theorem shutdownStopsTheEngine : Obligations.ShutdownStopsTheEngine := by
  unfold Obligations.ShutdownStopsTheEngine
  intro s hr
  have hexec : exec .shutdown s = .next (s.shutDown.answer true 0) := congrArg Host.Outcome.next (if_pos hr)
  exact ⟨[], 0, hexec⟩

theorem exec_spin_running {s : State} (hr : s.running = true) (now : Word) (powered : Bool) :
    exec (.spin now powered) s = .next ((s.spin cfg now powered).answer true 0) :=
  congrArg Host.Outcome.next (if_pos hr)

/-- Settles O42: the two cases of `losePower` are those of the current driver. -/
theorem spinWithoutPower : Obligations.SpinWithoutPower := by
  unfold Obligations.SpinWithoutPower
  intro s now hr
  refine ⟨[], 0, [], [], (exec_spin_running hr now false).trans ?_⟩
  simp only [State.spin, State.losePower, Bool.false_eq_true, if_false]
  cases hc : s.currentDriver <;> rfl

/-! ### The parts of a powered `SPIN` -/

section
variable {c : Config} {s : State} {now : Word} {i : Nat} {d : Driver}

theorem poll_of_no_current (hc : s.currentDriver = none) : s.poll c now = s := by
  simp only [State.poll, hc]

theorem poll_waiting (hc : s.currentDriver = some i) (hs : s.tr.tstate ≠ .complete)
    (hearly : (now - s.transferStartTime).toNat ≤ c.transferTimeout) : s.poll c now = s := by
  have hover : s.overdue c now = false := decide_eq_false (Nat.not_lt.mpr hearly)
  simp only [State.poll, hc, check_not_complete c _ hs, hover, Bool.false_eq_true, if_false]

theorem poll_complete {t : Transport} (hc : s.currentDriver = some i) (hd : s.drivers[i]? = some d)
    (ht : s.tr.check c = some t) :
    s.poll c now = { s with
      tr := t, drivers := s.drivers.set i (d.done c ((s.withTr t).intervalOf i) t.rx), lastServiced := i
      currentDriver := none } := by
  simp only [State.poll, hc, ht, finishTransfer_eq c (s := s.withTr t) hd]
  rfl

theorem startNext_of_current (hc : s.currentDriver = some i) : s.startNext c now = s := by
  simp only [State.startNext, hc]

theorem exec_spin_powered (hr : s.running = true)
    (hpower : ∀ (j : Nat) (x : Driver), s.drivers[j]? = some x → x.state ≠ .noPower) :
    exec (.spin now true) s = .next (((s.poll cfg now).startNext cfg now).answer true 0) :=
  congrArg Host.Outcome.next (spinCmd_powered hr hpower)

theorem choose_maxReadCount (d : Driver) : d.choose.maxReadCount = d.maxReadCount := by
  rcases choose_cases d with ⟨_, -, hd⟩ | ⟨-, hd⟩ <;> rw [hd]

end

/-- Settles O46: the polling part waits, and with a current driver nothing is started. -/
theorem spinWaits : Obligations.SpinWaits := by
  unfold Obligations.SpinWaits
  intro s now c hr hc hs hearly hpower
  rw [exec_spin_powered hr hpower, poll_waiting hc hs hearly, startNext_of_current hc]
  rfl

/-- Settles O47: with no current driver there is nothing to poll, and the starting part does what `E_START` does. -/
theorem spinStartsTheNextTransfer : Obligations.SpinStartsTheNextTransfer := by
  unfold Obligations.SpinStartsTheNextTransfer
  intro s now hr hc hidle hpower
  rw [exec_spin_powered hr hpower, poll_of_no_current hc]
  refine ⟨fun hn => ?nobody, fun i hn => ?next⟩
  case nobody =>
    rw [startNext_none hc hn]
    rfl
  case next =>
    obtain ⟨d, hd, -⟩ := eligible_of_nextDriver s i hn
    refine ⟨s.tr.issue cfg i (d.requestBytes cfg), d, d.choose, hd, ?spin, exec_eStart_eq hr hd, ?writing⟩
    case spin =>
      rw [startNext_some hc hn, startTransfer_eq cfg s i d hd]
      rfl
    case writing => rw [issue_of_idle cfg s.tr i d hidle]

/-- Settles O44: the polling part delivers the bytes and retires the transfer as `E_DONE` does, and the starting part does
what `E_START` does in the state this leaves. -/
theorem spinRetiresACompletedTransfer : Obligations.SpinRetiresACompletedTransfer := by
  unfold Obligations.SpinRetiresACompletedTransfer
  intro s now c d hr hc hd hs hpower
  have hpoll := poll_complete (now := now) hc hd (check_complete cfg s.tr hs)
  refine ⟨_, [], s.withTr _, s.poll cfg now, _, rfl, rfl, exec_eDone_delivered hr hd rfl, hpoll, fun hn => ?nobody,
    fun e he => ?next⟩
  case nobody =>
    rw [exec_spin_powered hr hpower, startNext_none (by rw [hpoll]) hn]
    rfl
  case next =>
    obtain ⟨x, hx, hm⟩ := eligible_of_nextDriver _ e he
    have hissue := issue_of_idle cfg (s.poll cfg now).tr e x (by rw [hpoll])
    refine ⟨_, x.choose, exec_eStart_eq ((poll_running cfg now s).trans hr) hx, ?spin, by rw [hissue], by rw [hissue],
      choose_pending x, (choose_maxReadCount x).trans_ne hm⟩
    case spin =>
      rw [exec_spin_powered hr hpower, startNext_some (by rw [hpoll]) he, startTransfer_eq cfg _ e x hx]
      rfl

/-! ### The first powered `SPIN` -/

section
variable {c : Config} {s : State}

/-- Slot 0 is in the base set, so after power-apply it is the first to be written (R242). -/
theorem powerApply_lowestDirty (c : Config) (d : Driver) : (d.powerApply c).lowestDirty = some .globalConf := by
  have hbase : WSlot.globalConf.index < c.nWriteBase := c.nWriteBase_ge
  exact lowestDirty_eq_some _ _ hbase (decide_eq_true hbase) fun j hj => absurd hj (Nat.not_lt_zero _)

theorem powerApply_get (c : Config) (d : Driver) (j : WSlot) :
    (d.powerApply c).w.get j = { d.w.get j with dirty := decide (j.index < c.nWriteBase) } := get_mapSlots _ _ j

theorem powerApply_choose_get (c : Config) (d : Driver) (j : WSlot) :
    (d.powerApply c).choose.w.get j =
      { d.w.get j with dirty := decide (j.index < c.nWriteBase) && !(j == .globalConf) } := by
  rw [choose_of_lowestDirty (powerApply_lowestDirty c d), get_set]
  split
  · next hj => simp [hj, powerApply_get]
  · next hj => simp [hj, powerApply_get]

/-- Once every driver has been powered up, the first candidate is served (R251, R252). -/
theorem nextDriver_of_powerUp (hone : 1 ≤ s.nDrivers)
    (hoff : ∀ (i : Nat) (d : Driver), s.drivers[i]? = some d → d.state = .noPower) :
    (s.applyPower c).nextDriver = some (s.candidate 1) := by
  have hd : s.drivers[s.candidate 1]? = some _ := List.getElem?_eq_getElem (Nat.mod_lt _ hone)
  have hcount : (s.applyPower c).nDrivers = s.nDrivers := List.length_map _
  have hcand : (s.applyPower c).candidate 1 = s.candidate 1 := by rw [State.candidate, hcount]; rfl
  have heligible : (s.applyPower c).eligibleAt (s.candidate 1) = true :=
    eligibleAt_iff.mpr ⟨_, applyPower_of_noPower hd (hoff _ _ hd), nReadBase_ne_zero c⟩
  exact nextDriver_eq_some_iff.mpr ⟨1, le_rfl, hcount ▸ hone, hcand.symm, heligible, fun j hj hj1 => by omega⟩

/-- A powered `SPIN` with no transfer in flight that finds the driver it serves without power (R242, R258). -/
theorem spin_powersUp {i : Nat} {d : Driver} (now : Word) (hc : s.currentDriver = none) (hd : s.drivers[i]? = some d)
    (hoff : d.state = .noPower) (hnext : (s.applyPower c).nextDriver = some i) :
    s.spin c now true = { s.applyPower c with
      drivers := (s.applyPower c).drivers.set i (d.powerApply c).choose
      tr := s.tr.issue c i ((d.powerApply c).requestBytes c), currentDriver := some i, transferStartTime := now } := by
  rw [State.spin, if_pos rfl, poll_of_no_current (s := s.applyPower c) hc, startNext_some (s := s.applyPower c) hc hnext,
    startTransfer_eq c _ i _ (applyPower_of_noPower hd hoff)]
  rfl

end

/-- Settles O43: power-apply makes every driver eligible with slot 0 dirty, so `SPIN` starts the write of slot 0 for the first
candidate. -/
theorem spinPowersUp : Obligations.SpinPowersUp := by
  unfold Obligations.SpinPowersUp
  intro s now hr hc hidle hone hoff
  obtain ⟨d0, hd0⟩ : ∃ d, s.drivers[s.candidate 1]? = some d := ⟨_, List.getElem?_eq_getElem (Nat.mod_lt _ hone)⟩
  have hlow := powerApply_lowestDirty cfg d0
  have hexec := exec_spin_running hr now true
  rw [spin_powersUp now hc hd0 (hoff _ _ hd0) (nextDriver_of_powerUp hone hoff), issue_of_idle cfg s.tr _ _ hidle,
    requestBytes_of_lowestDirty hlow] at hexec
  refine ⟨_, hexec, rfl, rfl, rfl, hr, ?count, rfl, rfl, rfl, rfl, rfl, rfl, rfl, rfl, rfl, rfl, rfl, rfl, rfl, rfl,
    fun d hd => ?bytes, fun i d hd => ?driver⟩
  case count => simp [State.nDrivers, State.applyPower]
  case bytes =>
    cases hd0.symm.trans hd
    rfl
  case driver =>
    have happly := applyPower_of_noPower (c := cfg) hd (hoff i d hd)
    by_cases hi : i = s.candidate 1
    · subst hi
      cases hd0.symm.trans hd
      refine ⟨(d0.powerApply cfg).choose.w, .write .globalConf, ?served, (if_pos rfl).symm, fun j => ?slots⟩
      case served =>
        refine (List.getElem?_set_self (List.getElem?_eq_some_iff.mp happly).1).trans (congrArg some ?_)
        rw [choose_of_lowestDirty hlow]
        rfl
      case slots => simp [powerApply_choose_get, State.candidate]
    · refine ⟨(d.powerApply cfg).w, .none, (List.getElem?_set_ne (Ne.symm hi)).trans happly, (if_neg hi).symm,
        fun j => ?_⟩
      have hother : i ≠ (s.lastServiced + 1) % s.nDrivers := hi
      simp [powerApply_get, hother]

end Sys2Proof.Machine
end

section
/-! The configuration and status commands: `SETCUR` (R282 to R286, R301), `SETMS` and `GETMS` (R287 to R289), the stall
commands (R290, R292), `GETLIVE` and `GETACC` (R295, R296), and `SETREG` and `GETREG` (R298, R299). -/

namespace Sys2Proof.Machine

/-! ### What a command of this family does to the block, by what it does to its driver -/

section
variable {j : Instr} {s : State} {drv : Byte} {f : Driver → Option (Driver × Word)} {d d' : Driver} {res : Word}

theorem exec_of_answered (hj : exec j s = .next (s.onDriver drv f)) (hr : s.running = true)
    (hd : s.drivers[drv.toNat]? = some d) (hf : f d = some (d', res)) :
    exec j s = .next { s with
      drivers := s.drivers.set drv.toNat d', reply := { ok := true, res := res, rdata := [], sampleOut := [] } } :=
  hj.trans (congrArg _ (onDriver_eq_some s drv f d d' res hr hd hf))

theorem exec_of_refused (hj : exec j s = .next (s.onDriver drv f)) (hd : s.drivers[drv.toNat]? = some d)
    (hf : f d = none) :
    exec j s = .next { s with reply := { ok := false, res := 0, rdata := [], sampleOut := [] } } :=
  hj.trans (congrArg _ (onDriver_eq_refuse s drv f (.inr (.inr ⟨d, hd, hf⟩))))

/-- A command that leaves its driver as it was changes nothing but the answer. -/
theorem exec_of_query (hj : exec j s = .next (s.onDriver drv f)) (hr : s.running = true)
    (hd : s.drivers[drv.toNat]? = some d) (hf : f d = some (d, res)) :
    exec j s = .next { s with reply := { ok := true, res := res, rdata := [], sampleOut := [] } } := by
  obtain ⟨hlt, hget⟩ := List.getElem?_eq_some_iff.mp hd
  have hset : s.drivers.set drv.toNat d = s.drivers := hget ▸ List.set_getElem_self hlt
  rw [exec_of_answered hj hr hd hf, hset]

end

/-! ### `SETCUR` -/

section
variable {c : Config} {d : Driver} {mA : Nat}

/-- The sense bit the clamped current asks for (R282, R283). -/
def vsenseFor (c : Config) (mA : Nat) : Bool := senseRange c (clampCurrent c mA) == .vs1

/-- The current register `SETCUR` writes (R284, R285). -/
def Driver.currentValue (c : Config) (mA : Nat) (d : Driver) : Word :=
  withCurrentCodes c (d.w.get .currentConf).value
    (currentCode c (senseRange c (clampCurrent c mA)) (clampCurrent c mA))
    (currentCode c (senseRange c (clampCurrent c mA)) (holdCurrent c (clampCurrent c mA) d.standstillFraction))

/-- What `SETCUR` makes of a driver whose chopper slot already holds the sense bit asked for. -/
def Driver.withCurrent (c : Config) (mA : Nat) (d : Driver) : Driver :=
  { d with motorCurrent := clampCurrent c mA }.updateRegister .currentConf (d.currentValue c mA)

theorem setCurrent_of_vsense_eq (h : (d.w.get .chopperConf).value.getLsbD c.vsenseBit = vsenseFor c mA) :
    (d.setCurrent c mA).1 = d.withCurrent c mA := if_pos h

theorem setCurrent_of_vsense_ne (h : (d.w.get .chopperConf).value.getLsbD c.vsenseBit ≠ vsenseFor c mA) :
    (d.setCurrent c mA).1 = (d.withCurrent c mA).updateRegister .chopperConf
      (withVsense c (d.w.get .chopperConf).value (vsenseFor c mA)) := if_neg h

/-- Outside the write slots, `SETCUR` stores the clamped current and nothing else. -/
theorem setCurrent_frame (c : Config) (mA : Nat) (d : Driver) :
    (d.setCurrent c mA).1 = { d with motorCurrent := clampCurrent c mA, w := (d.setCurrent c mA).1.w } := by
  by_cases h : (d.w.get .chopperConf).value.getLsbD c.vsenseBit = vsenseFor c mA
  · rw [setCurrent_of_vsense_eq h]
    rfl
  · rw [setCurrent_of_vsense_ne h]
    rfl

/-- Every slot but the chopper slot is the same whether or not the sense bit changes. -/
theorem setCurrent_get_of_ne_chopper {j : WSlot} (hj : j ≠ .chopperConf) :
    (d.setCurrent c mA).1.w.get j = (d.withCurrent c mA).w.get j := by
  by_cases h : (d.w.get .chopperConf).value.getLsbD c.vsenseBit = vsenseFor c mA
  · rw [setCurrent_of_vsense_eq h]
  · rw [setCurrent_of_vsense_ne h, updateRegister_w, get_set, if_neg hj]

theorem withCurrent_get_currentConf (c : Config) (mA : Nat) (d : Driver) :
    (d.withCurrent c mA).w.get .currentConf = { d.w.get .currentConf with
      value := d.currentValue c mA, dirty := true
      crc := slotCrc (d.w.get .currentConf).regNum (d.currentValue c mA) } := rfl

theorem withCurrent_get_of_ne {j : WSlot} (hj : j ≠ .currentConf) : (d.withCurrent c mA).w.get j = d.w.get j := by
  rw [Driver.withCurrent, updateRegister_w, get_set, if_neg hj]

theorem setCurrent_get_chopper_of_ne (h : (d.w.get .chopperConf).value.getLsbD c.vsenseBit ≠ vsenseFor c mA) :
    (d.setCurrent c mA).1.w.get .chopperConf = { d.w.get .chopperConf with
      value := withVsense c (d.w.get .chopperConf).value (vsenseFor c mA), dirty := true
      crc := slotCrc (d.w.get .chopperConf).regNum (withVsense c (d.w.get .chopperConf).value (vsenseFor c mA)) } := by
  rw [setCurrent_of_vsense_ne h]
  rfl

/-- Whatever the chopper slot held, `SETCUR` leaves the sense bit asked for in it (R282, R283). -/
theorem setCurrent_vsense (c : Config) (mA : Nat) (d : Driver) :
    ((d.setCurrent c mA).1.w.get .chopperConf).value.getLsbD c.vsenseBit = vsenseFor c mA := by
  by_cases h : (d.w.get .chopperConf).value.getLsbD c.vsenseBit = vsenseFor c mA
  · rw [setCurrent_of_vsense_eq h, withCurrent_get_of_ne (by decide), h]
  · rw [setCurrent_get_chopper_of_ne h]
    exact (withVsense_bit c _ _ _ c.chopperFields.1).trans (if_pos rfl)

theorem clampCurrent_of_mem (hlo : minCurrentMA ≤ mA) (hhi : mA ≤ c.deviceMaxMA) : clampCurrent c mA = mA := by
  rw [clampCurrent, if_neg hlo.not_gt, if_neg hhi.not_gt]

end

/-- Settles O48: `SETCUR` goes one of two ways, by whether the chopper slot holds the sense bit asked for; the slots are read
off each way. -/
theorem setCurrentWritesTheCodes : Obligations.SetCurrentWritesTheCodes := by
  unfold Obligations.SetCurrentWritesTheCodes
  intro s drv mA d hr hd
  have hcodes := withCurrentCodes_bit cfg (d.w.get .currentConf).value (senseRange cfg (clampCurrent cfg mA.toNat))
    (clampCurrent cfg mA.toNat) (holdCurrent cfg (clampCurrent cfg mA.toNat) d.standstillFraction)
  refine ⟨clampCurrent cfg mA.toNat, _, senseRange cfg (clampCurrent cfg mA.toNat), d.currentValue cfg mA.toNat,
    (d.setCurrent cfg mA.toNat).1, [], [], rfl, rfl, rfl, exec_of_answered rfl hr hd rfl, setCurrent_frame cfg mA.toNat d,
    ?current, hcodes, fun hsame => ?kept, fun hdiffers => ⟨_, setCurrent_get_chopper_of_ne hdiffers, withVsense_bit cfg _ _⟩,
    fun j hcurrent hchopper => ?other⟩
  case current => rw [setCurrent_get_of_ne_chopper (by decide), withCurrent_get_currentConf]
  case kept => rw [setCurrent_of_vsense_eq hsame, withCurrent_get_of_ne (by decide)]
  case other => rw [setCurrent_get_of_ne_chopper hchopper, withCurrent_get_of_ne hcurrent]

/-- Settles O49: `I_MAX_VS1` and, when it is below `DEVICE_MAX_MA`, its successor pass the clamp unchanged, so the range is
decided by R283's comparison; a code is a clamped number. -/
theorem currentBoundary : Obligations.CurrentBoundary := by
  unfold Obligations.CurrentBoundary
  refine fun c d => ⟨?atBoundary, fun habove => ?above, fun r mA => ?code⟩
  case atBoundary =>
    have hclamp : clampCurrent c c.iMaxVs1 = c.iMaxVs1 := clampCurrent_of_mem c.iMax_ge c.iMax_le
    have hrange : senseRange c c.iMaxVs1 = .vs1 := if_pos le_rfl
    exact (setCurrent_vsense c c.iMaxVs1 d).trans (by rw [vsenseFor, hclamp, hrange]; rfl)
  case above =>
    have hclamp : clampCurrent c (c.iMaxVs1 + 1) = c.iMaxVs1 + 1 :=
      clampCurrent_of_mem (c.iMax_ge.trans (Nat.le_succ _)) habove
    have hrange : senseRange c (c.iMaxVs1 + 1) = .vs0 := if_neg (Nat.not_succ_le_self _)
    exact (setCurrent_vsense c (c.iMaxVs1 + 1) d).trans (by rw [vsenseFor, hclamp, hrange]; rfl)
  case code =>
    rw [currentCode_toNat]
    exact Int.toNat_le.mpr (clamp_code_range _).2

/-! ### `SETMS` -/

section
variable {c : Config} {d : Driver} {m : Word}

theorem setMicrosteps_of_pow {shift : Fin 9} (h : m.toNat = 2 ^ shift.val) (interp : Bool) :
    d.setMicrosteps c m interp = some ({ d with microstepShift := shift, interpolate := interp }.updateRegister .chopperConf
      (withMicrosteps c (d.w.get .chopperConf).value shift interp), 0) := by
  rw [Driver.setMicrosteps, microstepShiftOf_pow m shift h]
  rfl

theorem setMicrosteps_eq_none (h : ∀ shift : Fin 9, m.toNat ≠ 2 ^ shift.val) (interp : Bool) :
    d.setMicrosteps c m interp = none := by
  rw [Driver.setMicrosteps, microstepShiftOf_other m h]

end

/-- Settles O50: a power of two up to 256 has its shift, and every other operand has none. -/
theorem setMicrostepsWritesTheField : Obligations.SetMicrostepsWritesTheField := by
  unfold Obligations.SetMicrostepsWritesTheField
  intro s drv m interp d hr hd
  refine ⟨fun shift hm => ?valid, fun hm => ?refused⟩
  case valid =>
    exact ⟨_, [], [], exec_of_answered rfl hr hd (setMicrosteps_of_pow hm interp),
      withMicrosteps_bit cfg (d.w.get .chopperConf).value shift interp⟩
  case refused => exact ⟨[], [], exec_of_refused rfl hd (setMicrosteps_eq_none hm interp)⟩

/-! ### `SETSGT` and `SETSGMIN` -/

/-- Settles O51: each of the two is one slot update (R280) with a value that fits the register. -/
theorem stallCommandsWriteTheirSlots : Obligations.StallCommandsWriteTheirSlots := by
  unfold Obligations.StallCommandsWriteTheirSlots
  intro s drv x d hr hd
  refine ⟨⟨(cfg.stallMap (clamp x.toInt (-128) 127)).setWidth 32, [], [], ?threshold, exec_of_answered rfl hr hd rfl⟩,
    ⟨BitVec.ofNat 32 (min (cfg.tstepOf x.toNat) 0xFFFFF), [], [], ?velocity, exec_of_answered rfl hr hd rfl⟩⟩
  case threshold =>
    exact BitVec.toNat_setWidth_of_le (by decide)
  case velocity =>
    have hfits : min (cfg.tstepOf x.toNat) 0xFFFFF < 2 ^ 32 := by omega
    exact Nat.mod_eq_of_lt hfits

/-! ### `GETMS`, `GETLIVE` and `GETACC` -/

/-- The bits of the answer of `GETMS` (R289): the shift is the position of the one bit below 9. -/
theorem microstepAnswer_bit (shift : Fin 9) (interp : Bool) (b : Nat) :
    (microstepAnswer shift interp).getLsbD b = (decide (b = shift.val) || (decide (b = 16) && interp)) := by
  have hcount : (BitVec.ofNat 32 (2 ^ shift.val)).getLsbD b = decide (b = shift.val) := by
    rw [BitVec.getLsbD_ofNat, Nat.testBit_two_pow]
    grind
  have hflag : (1#32 <<< 16).getLsbD b = decide (b = 16) := by
    rw [← BitVec.twoPow_eq, BitVec.getLsbD_twoPow]
    grind
  rw [microstepAnswer, BitVec.getLsbD_or, hcount]
  cases interp
  · simp
  · simp only [if_true, hflag, Bool.and_true]

theorem microstepAnswer_count (shift : Fin 9) (interp : Bool) :
    ((microstepAnswer shift interp).extractLsb' 0 9).toNat = 2 ^ shift.val := by
  revert shift interp
  decide

theorem takeAccum_eq {c : Config} {d : Driver} {x : ReadSlot} (hx : d.r[c.statusSlot]? = some x) (keep : Word) :
    d.takeAccum c keep =
      ({ d with r := d.r.set c.statusSlot { x with accum := x.accum &&& keep } }, x.accum) := by
  rw [Driver.takeAccum, readSlot_eq c d _ x hx]
  rfl

/-- Settles O52: the two queries leave the driver as it was, and `GETACC` replaces the status slot. -/
theorem statusCommandsAnswer : Obligations.StatusCommandsAnswer := by
  unfold Obligations.StatusCommandsAnswer
  intro s drv keep d x hr hd hx
  refine ⟨⟨microstepAnswer d.microstepShift d.interpolate, [], [], exec_of_query rfl hr hd rfl,
    microstepAnswer_count _ _, ?interpolation, fun b hb hne => ?zero⟩, ⟨[], [], ?live⟩, ⟨[], [], ?latched⟩⟩
  case interpolation =>
    have hshift : 16 ≠ d.microstepShift.val := by omega
    rw [microstepAnswer_bit, decide_eq_false hshift]
    rfl
  case zero =>
    have hshift : b ≠ d.microstepShift.val := by omega
    rw [microstepAnswer_bit, decide_eq_false hshift, decide_eq_false hne]
    rfl
  case live =>
    rw [← readSlot_eq cfg d _ x hx]
    exact exec_of_query rfl hr hd rfl
  case latched => exact exec_of_answered rfl hr hd (congrArg some (takeAccum_eq hx keep))

/-! ### What a register name code names (R127) -/

section
variable {c : Config} {name : Word} {d : Driver}

theorem regNameOf_of_index {i : WSlot} (h : name.toNat = i.index) : regNameOf c name = some (.write i) := by
  rw [regNameOf, if_pos (h ▸ index_lt i), h, slotOfIndex_index]
  rfl

theorem regNameOf_of_read {k : Nat} (h : name.toNat = 0x10 + k) (hk : k < c.nReadExt) :
    regNameOf c name = some (.read k) := by
  rw [regNameOf, if_neg (by omega), if_pos (by omega), show name.toNat - 0x10 = k by omega]

/-- Past the write slots, a code that names no read slot is tested as a diagnostic field (R299). -/
theorem regNameOf_of_not_slot (h : 8 < name.toNat) (hread : name.toNat < 0x10 ∨ 0x10 + c.nReadExt ≤ name.toNat) :
    regNameOf c name = (diagOfCode name.toNat).map .diag := by
  rw [regNameOf, if_neg (by omega), if_neg (by omega)]

theorem regNameOf_ne_write (h : 8 < name.toNat) (i : WSlot) : regNameOf c name ≠ some (.write i) := by
  rw [regNameOf, if_neg (by omega)]
  split
  · simp
  · cases diagOfCode name.toNat <;> simp

theorem diagOfCode_eq_none {code : Nat} (h : code < 0x20 ∨ 0x26 < code) : diagOfCode code = none := by
  unfold diagOfCode
  split
  case h_8 => rfl
  all_goals omega

/-! ### `SETREG` and `GETREG` on a driver -/

theorem setRaw_of_index {i : WSlot} (h : name.toNat = i.index) (v : Word) :
    d.setRaw c name v = some (d.updateRegister i v, 0) := by
  rw [Driver.setRaw, regNameOf_of_index h]

theorem setRaw_eq_none (h : 8 < name.toNat) (v : Word) : d.setRaw c name v = none := by
  unfold Driver.setRaw
  split
  case h_1 i hi => exact absurd hi (regNameOf_ne_write h i)
  case h_2 => rfl

theorem getRaw_of_index {i : WSlot} (h : name.toNat = i.index) : d.getRaw c name = some (d.w.get i).value := by
  rw [Driver.getRaw, regNameOf_of_index h]

theorem getRaw_of_read {k : Nat} {x : ReadSlot} (h : name.toNat = 0x10 + k) (hk : k < c.nReadExt) (hx : d.r[k]? = some x) :
    d.getRaw c name = some x.last := by
  rw [Driver.getRaw, regNameOf_of_read h hk, ← readSlot_eq c d k x hx]

theorem getRaw_of_not_slot (h : 8 < name.toNat) (hread : name.toNat < 0x10 ∨ 0x10 + c.nReadExt ≤ name.toNat) :
    d.getRaw c name = (diagOfCode name.toNat).map d.diagValue := by
  rw [Driver.getRaw, regNameOf_of_not_slot h hread]
  cases diagOfCode name.toNat <;> rfl

end

/-- Settles O53: the codes `0x00..0x08` are the slot indices, and no code above names a write slot. -/
theorem setRegWritesTheNamedSlot : Obligations.SetRegWritesTheNamedSlot := by
  unfold Obligations.SetRegWritesTheNamedSlot
  intro s drv name v d hr hd
  refine ⟨fun i hi => ?slot, fun hname => ?refused⟩
  case slot => exact ⟨[], [], exec_of_answered rfl hr hd (setRaw_of_index hi v)⟩
  case refused => exact ⟨[], [], exec_of_refused rfl hd (setRaw_eq_none hname v)⟩

/-- `GETREG` answers what the name gives, or refuses, and leaves the driver as it was. -/
theorem exec_getreg {s : State} {drv : Byte} {d : Driver} (hr : s.running = true)
    (hd : s.drivers[drv.toNat]? = some d) (name : Word) :
    exec (.getreg drv name) s = .next { s with
      reply := { ok := (d.getRaw cfg name).isSome, res := (d.getRaw cfg name).getD 0, rdata := [], sampleOut := [] } } := by
  cases hv : d.getRaw cfg name with
  | none => exact exec_of_refused rfl hd (congrArg (Option.map _) hv)
  | some v => exact exec_of_query rfl hr hd (congrArg (Option.map _) hv)

/-- Settles O54: the three ranges of name codes in the order R299 tests them; beyond the read slots the code alone gives the
diagnostic field. -/
theorem getRegAnswersTheNamedValue : Obligations.GetRegAnswersTheNamedValue := by
  unfold Obligations.GetRegAnswersTheNamedValue
  refine ⟨fun s drv name d hr hd => exec_getreg hr hd name, fun c name d hlen => ?_⟩
  refine ⟨fun i => getRaw_of_index, fun k x hk hx => ?read, fun h9 h16 => ?gap, fun hbeyond => ?beyond⟩
  case read => exact getRaw_of_read hk (hlen ▸ (List.getElem?_eq_some_iff.mp hx).1) hx
  case gap => rw [getRaw_of_not_slot h9 (.inl h16), diagOfCode_eq_none (.inl (by omega)), Option.map_none]
  case beyond =>
    rw [getRaw_of_not_slot (by omega) (.inr hbeyond)]
    refine ⟨?_, ?_, ?_, ?_, ?_, ?_, ?_, fun hnone => by rw [diagOfCode_eq_none hnone, Option.map_none]⟩
    all_goals
      intro hcode
      rw [hcode]
      rfl

end Sys2Proof.Machine
end
